-- ==== Sys2Proof/Word.lean ====
section
/-! DEFINITION. The word types of the TWI engine (00_scope.md R6, R7). All numbers below are bit vectors of one
fixed width; lengths that the spec sums in unbounded integers (R108) are `Nat`s made with `toNat`. -/

namespace Sys2Proof

/-- A byte of the data space, of a bus controller register or of a header (R7, R30). -/
abbrev Byte := BitVec 8

/-- A data-space address or a pointer into it: PW = 16 bits (R6). -/
abbrev Ptr := BitVec 16

/-- A 16-bit quantity: a segment length, COUNT, a handle, a result (R6, R19, R76). -/
abbrev Half := BitVec 16

/-- A command word of the command port (R71). -/
abbrev CmdWord := BitVec 64

/-- A response word of the command port (R76). -/
abbrev RespWord := BitVec 24

/-- An event record as the event port carries it (R87). -/
abbrev EventWord := BitVec 40

end Sys2Proof
end

