-- ==== Sys2Proof/Syntax.lean ====
section
/-! DEFINITION. The engine's instructions: one constructor per row of spec/opcode_table.json, twelve host commands
(R72) and thirty-two status codes (R121). A command carries the operand fields it uses (R72); a field it does not
use is ignored (R75) and is not here. A status code has no operand (R78). -/

namespace Sys2Proof

/-- The instructions. -/
inductive Instr where
  /-- BEGIN, R141. `a8` is the whole A8 field; its bit 7 must be 0 (R74). -/
  | beginCmd (a8 : Byte) (target : Half)
  /-- SBEGIN, R203. `a8` is the whole A8 field; its bit 7 must be 0 (R74). -/
  | sbegin (a8 : Byte) (target : Half)
  /-- END, R142. -/
  | endCmd
  /-- WREQ, R144. -/
  | wreq (buf : Ptr) (size : Half)
  /-- WREQ1, R145. -/
  | wreq1 (header : Byte) (buf : Ptr) (size : Half)
  /-- WREQ2, R146. -/
  | wreq2 (header : Half) (buf : Ptr) (size : Half)
  /-- RREQ, R147. -/
  | rreq (buf : Ptr) (size : Half)
  /-- AWAIT, R148. -/
  | awaitCmd (sleepMode : Byte)
  /-- POLL, R149. -/
  | poll
  /-- SETRB, R201. -/
  | setrb (buf : Ptr) (size : Half)
  /-- SETWB, R202. -/
  | setwb (buf : Ptr) (size : Half)
  /-- REARM, R204. -/
  | rearm
  /-- BUS_ERROR 0x00, R183. -/
  | busError
  /-- START 0x08, R172. -/
  | start
  /-- REP_START 0x10, R173. -/
  | repStart
  /-- MT_SLA_ACK 0x18, R175. -/
  | mtSlaAck
  /-- MT_SLA_NACK 0x20, R178. -/
  | mtSlaNack
  /-- MT_DATA_ACK 0x28, R176. -/
  | mtDataAck
  /-- MT_DATA_NACK 0x30, R177. -/
  | mtDataNack
  /-- ARB_LOST 0x38, R174. -/
  | arbLost
  /-- MR_SLA_ACK 0x40, R179. -/
  | mrSlaAck
  /-- MR_SLA_NACK 0x48, R182. -/
  | mrSlaNack
  /-- MR_DATA_ACK 0x50, R180. -/
  | mrDataAck
  /-- MR_DATA_NACK 0x58, R181. -/
  | mrDataNack
  /-- SR_SLA_ACK 0x60, R206. -/
  | srSlaAck
  /-- SR_ARB_LOST_SLA_ACK 0x68, R207. -/
  | srArbLostSlaAck
  /-- SR_GCALL_ACK 0x70, R208. -/
  | srGcallAck
  /-- SR_ARB_LOST_GCALL_ACK 0x78, R209. -/
  | srArbLostGcallAck
  /-- SR_DATA_ACK 0x80, R210. -/
  | srDataAck
  /-- SR_DATA_NACK 0x88, R212. -/
  | srDataNack
  /-- SR_GCALL_DATA_ACK 0x90, R211. -/
  | srGcallDataAck
  /-- SR_GCALL_DATA_NACK 0x98, R213. -/
  | srGcallDataNack
  /-- SR_STOP 0xA0, R214. -/
  | srStop
  /-- ST_SLA_ACK 0xA8, R216. -/
  | stSlaAck
  /-- ST_ARB_LOST_SLA_ACK 0xB0, R217. -/
  | stArbLostSlaAck
  /-- ST_DATA_ACK 0xB8, R218. -/
  | stDataAck
  /-- ST_DATA_NACK 0xC0, R220. -/
  | stDataNack
  /-- ST_LAST_DATA 0xC8, R221. -/
  | stLastData
  /-- UNMAPPED code 0xD0, R185. -/
  | unmappedD0
  /-- UNMAPPED code 0xD8, R185. -/
  | unmappedD8
  /-- UNMAPPED code 0xE0, R185. -/
  | unmappedE0
  /-- UNMAPPED code 0xE8, R185. -/
  | unmappedE8
  /-- UNMAPPED code 0xF0, R185. -/
  | unmappedF0
  /-- NO_INFO 0xF8, R184. -/
  | noInfo
deriving DecidableEq, Repr

/-- The closed set of 28 conditions of the status decoder: the 27 named ones and UNMAPPED (R120, R122). -/
inductive Condition where
  | busError | start | repStart
  | mtSlaAck | mtSlaNack | mtDataAck | mtDataNack
  | arbLost
  | mrSlaAck | mrSlaNack | mrDataAck | mrDataNack
  | srSlaAck | srArbLostSlaAck | srGcallAck | srArbLostGcallAck
  | srDataAck | srDataNack | srGcallDataAck | srGcallDataNack | srStop
  | stSlaAck | stArbLostSlaAck | stDataAck | stDataNack | stLastData
  | unmapped | noInfo
deriving DecidableEq, Repr

/-- The protocol phases of R123. Descriptive: the engine selects its reaction by the condition alone (R123, R170). -/
inductive Phase where
  | startSent | addressAcked | addressNacked | dataAcked | dataNacked
  | endOfSlaveReception | arbitrationLost | busError | none
deriving DecidableEq, Repr

/-- The classes of R121's table. Descriptive (R123). -/
inductive ConditionClass where
  | common | master | masterTransmit | masterReceive | slaveReceive | slaveTransmit | none
deriving DecidableEq, Repr

/-- The two things that arrive and make the block take a step (R70): a command word at the command port, a status
byte in SR. -/
inductive Code where
  | command (w : CmdWord)
  | status (b : Byte)
deriving DecidableEq, Repr

end Sys2Proof
end

