-- ==== Sys2Proof/WellFormed.lean ====
section
/-! DEFINITION. Which instruction terms are instructions of the machine. The operand types already hold every width;
what is left to check is R74: the address of BEGIN and SBEGIN has 7 bits, so bit 7 of their A8 field is 0. -/

namespace Sys2Proof

/-- R74: A8[7] = 1 is illegal in BEGIN and SBEGIN. It is legal in every other use of A8 (V-ENC-23). -/
def Instr.wellFormed (i : Instr) : Bool :=
  match i with
  | .beginCmd a8 _ => !a8.msb
  | .sbegin a8 _ => !a8.msb
  | .endCmd | .wreq _ _ | .wreq1 _ _ _ | .wreq2 _ _ _ | .rreq _ _ | .awaitCmd _ | .poll
  | .setrb _ _ | .setwb _ _ | .rearm => true
  | .busError | .start | .repStart | .mtSlaAck | .mtSlaNack | .mtDataAck | .mtDataNack | .arbLost => true
  | .mrSlaAck | .mrSlaNack | .mrDataAck | .mrDataNack => true
  | .srSlaAck | .srArbLostSlaAck | .srGcallAck | .srArbLostGcallAck => true
  | .srDataAck | .srDataNack | .srGcallDataAck | .srGcallDataNack | .srStop => true
  | .stSlaAck | .stArbLostSlaAck | .stDataAck | .stDataNack | .stLastData => true
  | .unmappedD0 | .unmappedD8 | .unmappedE0 | .unmappedE8 | .unmappedF0 | .noInfo => true

end Sys2Proof
end

