-- ==== Sys2Proof/Decode.lean ====
section
/-! DEFINITION. The two decoders of the block (R70): the command word decoder (R71 to R75) and the status decoder
(R120 to R122), total on every word, with the rejected command words named; then the encoder, written from the same
tables; then the numbering of spec/opcode_table.json. -/

namespace Sys2Proof

/-! ### The fields of a command word (R71) -/

/-- OPC, bits 63:56 (R71). -/
def opcOf (w : CmdWord) : Byte := w.extractLsb' 56 8
/-- A8, bits 55:48 (R71). -/
def a8Of (w : CmdWord) : Byte := w.extractLsb' 48 8
/-- H16, bits 47:32 (R71). -/
def h16Of (w : CmdWord) : Half := w.extractLsb' 32 16
/-- BUF, bits 31:16 (R71). -/
def bufOf (w : CmdWord) : Ptr := w.extractLsb' 16 16
/-- SIZE, bits 15:0 (R71). -/
def sizeOf (w : CmdWord) : Half := w.extractLsb' 0 16

/-! ### The command decoder -/

/-- Why a command word is illegal (R74). -/
inductive Reject where
  /-- OPC is 0x00 or 0x0D to 0xFF. -/
  | illegalOpcode (opc : Byte)
  /-- BEGIN or SBEGIN with A8[7] = 1. -/
  | addressBit7 (a8 : Byte)
deriving DecidableEq, Repr

/-- R72, R74, R75: the opcode selects the command; unused fields are ignored; BEGIN and SBEGIN need A8[7] = 0. -/
def decodeCommand (w : CmdWord) : Except Reject Instr :=
  match (opcOf w).toNat with
  | 0x01 => if (a8Of w).msb then .error (.addressBit7 (a8Of w)) else .ok (.beginCmd (a8Of w) (h16Of w))
  | 0x02 => if (a8Of w).msb then .error (.addressBit7 (a8Of w)) else .ok (.sbegin (a8Of w) (h16Of w))
  | 0x03 => .ok .endCmd
  | 0x04 => .ok (.wreq (bufOf w) (sizeOf w))
  | 0x05 => .ok (.wreq1 (a8Of w) (bufOf w) (sizeOf w))
  | 0x06 => .ok (.wreq2 (h16Of w) (bufOf w) (sizeOf w))
  | 0x07 => .ok (.rreq (bufOf w) (sizeOf w))
  | 0x08 => .ok (.awaitCmd (a8Of w))
  | 0x09 => .ok .poll
  | 0x0A => .ok (.setrb (bufOf w) (sizeOf w))
  | 0x0B => .ok (.setwb (bufOf w) (sizeOf w))
  | 0x0C => .ok .rearm
  | _ => .error (.illegalOpcode (opcOf w))

/-! ### The status decoder -/

/-- The status code number SR[7:3] (R78): bits 2:0 take no part in decoding. -/
def statusCode (sr : Byte) : Nat := (sr.extractLsb' 3 5).toNat

/-- The opcode-table row of a status byte (R78, R121). -/
def decodeStatus (sr : Byte) : Instr :=
  match statusCode sr with
  | 0 => .busError
  | 1 => .start
  | 2 => .repStart
  | 3 => .mtSlaAck
  | 4 => .mtSlaNack
  | 5 => .mtDataAck
  | 6 => .mtDataNack
  | 7 => .arbLost
  | 8 => .mrSlaAck
  | 9 => .mrSlaNack
  | 10 => .mrDataAck
  | 11 => .mrDataNack
  | 12 => .srSlaAck
  | 13 => .srArbLostSlaAck
  | 14 => .srGcallAck
  | 15 => .srArbLostGcallAck
  | 16 => .srDataAck
  | 17 => .srDataNack
  | 18 => .srGcallDataAck
  | 19 => .srGcallDataNack
  | 20 => .srStop
  | 21 => .stSlaAck
  | 22 => .stArbLostSlaAck
  | 23 => .stDataAck
  | 24 => .stDataNack
  | 25 => .stLastData
  | 26 => .unmappedD0
  | 27 => .unmappedD8
  | 28 => .unmappedE0
  | 29 => .unmappedE8
  | 30 => .unmappedF0
  | _ => .noInfo

/-- R120: `decode(sr)`, the condition named by a status byte. The five codes with no name are UNMAPPED (R80, R122). -/
def decodeCondition (sr : Byte) : Condition :=
  match statusCode sr with
  | 0 => .busError
  | 1 => .start
  | 2 => .repStart
  | 3 => .mtSlaAck
  | 4 => .mtSlaNack
  | 5 => .mtDataAck
  | 6 => .mtDataNack
  | 7 => .arbLost
  | 8 => .mrSlaAck
  | 9 => .mrSlaNack
  | 10 => .mrDataAck
  | 11 => .mrDataNack
  | 12 => .srSlaAck
  | 13 => .srArbLostSlaAck
  | 14 => .srGcallAck
  | 15 => .srArbLostGcallAck
  | 16 => .srDataAck
  | 17 => .srDataNack
  | 18 => .srGcallDataAck
  | 19 => .srGcallDataNack
  | 20 => .srStop
  | 21 => .stSlaAck
  | 22 => .stArbLostSlaAck
  | 23 => .stDataAck
  | 24 => .stDataNack
  | 25 => .stLastData
  | 31 => .noInfo
  | _ => .unmapped

/-- The condition a status instruction stands for; none for a command. -/
def Instr.condition (i : Instr) : Option Condition :=
  match i with
  | .beginCmd _ _ | .sbegin _ _ | .endCmd | .wreq _ _ | .wreq1 _ _ _ | .wreq2 _ _ _ | .rreq _ _ | .awaitCmd _
  | .poll | .setrb _ _ | .setwb _ _ | .rearm => none
  | .busError => some .busError
  | .start => some .start
  | .repStart => some .repStart
  | .mtSlaAck => some .mtSlaAck
  | .mtSlaNack => some .mtSlaNack
  | .mtDataAck => some .mtDataAck
  | .mtDataNack => some .mtDataNack
  | .arbLost => some .arbLost
  | .mrSlaAck => some .mrSlaAck
  | .mrSlaNack => some .mrSlaNack
  | .mrDataAck => some .mrDataAck
  | .mrDataNack => some .mrDataNack
  | .srSlaAck => some .srSlaAck
  | .srArbLostSlaAck => some .srArbLostSlaAck
  | .srGcallAck => some .srGcallAck
  | .srArbLostGcallAck => some .srArbLostGcallAck
  | .srDataAck => some .srDataAck
  | .srDataNack => some .srDataNack
  | .srGcallDataAck => some .srGcallDataAck
  | .srGcallDataNack => some .srGcallDataNack
  | .srStop => some .srStop
  | .stSlaAck => some .stSlaAck
  | .stArbLostSlaAck => some .stArbLostSlaAck
  | .stDataAck => some .stDataAck
  | .stDataNack => some .stDataNack
  | .stLastData => some .stLastData
  | .unmappedD0 | .unmappedD8 | .unmappedE0 | .unmappedE8 | .unmappedF0 => some .unmapped
  | .noInfo => some .noInfo

/-- R123: the protocol phase of a condition. -/
def Condition.phase (c : Condition) : Phase :=
  match c with
  | .start | .repStart => .startSent
  | .mtSlaAck | .mrSlaAck | .srSlaAck | .srArbLostSlaAck | .srGcallAck | .srArbLostGcallAck | .stSlaAck
  | .stArbLostSlaAck => .addressAcked
  | .mtSlaNack | .mrSlaNack => .addressNacked
  | .mtDataAck | .mrDataAck | .srDataAck | .srGcallDataAck | .stDataAck | .stLastData => .dataAcked
  | .mtDataNack | .mrDataNack | .srDataNack | .srGcallDataNack | .stDataNack => .dataNacked
  | .srStop => .endOfSlaveReception
  | .arbLost => .arbitrationLost
  | .busError => .busError
  | .noInfo | .unmapped => .none

/-- The class column of R121's table. -/
def Condition.kind (c : Condition) : ConditionClass :=
  match c with
  | .busError | .noInfo => .common
  | .start | .repStart | .arbLost => .master
  | .mtSlaAck | .mtSlaNack | .mtDataAck | .mtDataNack => .masterTransmit
  | .mrSlaAck | .mrSlaNack | .mrDataAck | .mrDataNack => .masterReceive
  | .srSlaAck | .srArbLostSlaAck | .srGcallAck | .srArbLostGcallAck | .srDataAck | .srDataNack | .srGcallDataAck
  | .srGcallDataNack | .srStop => .slaveReceive
  | .stSlaAck | .stArbLostSlaAck | .stDataAck | .stDataNack | .stLastData => .slaveTransmit
  | .unmapped => .none

/-- R125: the arbitration-loss detector. It is false for the three combined codes (R126). -/
def arbLost (sr : Byte) : Bool := decodeCondition sr == .arbLost

/-- R70: the decoder of both inputs. A status byte is never rejected (R122). -/
def decode (c : Code) : Except Reject Instr :=
  match c with
  | .command w => decodeCommand w
  | .status b => .ok (decodeStatus b)

/-! ### The encoder -/

/-- A command word from its five fields (R71). -/
def commandWord (opc a8 : Byte) (h16 : Half) (buf : Ptr) (size : Half) : CmdWord :=
  ((((opc ++ a8) ++ h16) ++ buf) ++ size : BitVec (8 + 8 + 16 + 16 + 16))

/-- R72, R121: the code of an instruction; the fields it does not use are 0. -/
def encode (i : Instr) : Code :=
  match i with
  | .beginCmd a8 target => .command (commandWord 0x01#8 a8 target 0#16 0#16)
  | .sbegin a8 target => .command (commandWord 0x02#8 a8 target 0#16 0#16)
  | .endCmd => .command (commandWord 0x03#8 0#8 0#16 0#16 0#16)
  | .wreq buf size => .command (commandWord 0x04#8 0#8 0#16 buf size)
  | .wreq1 header buf size => .command (commandWord 0x05#8 header 0#16 buf size)
  | .wreq2 header buf size => .command (commandWord 0x06#8 0#8 header buf size)
  | .rreq buf size => .command (commandWord 0x07#8 0#8 0#16 buf size)
  | .awaitCmd sleepMode => .command (commandWord 0x08#8 sleepMode 0#16 0#16 0#16)
  | .poll => .command (commandWord 0x09#8 0#8 0#16 0#16 0#16)
  | .setrb buf size => .command (commandWord 0x0A#8 0#8 0#16 buf size)
  | .setwb buf size => .command (commandWord 0x0B#8 0#8 0#16 buf size)
  | .rearm => .command (commandWord 0x0C#8 0#8 0#16 0#16 0#16)
  | .busError => .status 0x00#8
  | .start => .status 0x08#8
  | .repStart => .status 0x10#8
  | .mtSlaAck => .status 0x18#8
  | .mtSlaNack => .status 0x20#8
  | .mtDataAck => .status 0x28#8
  | .mtDataNack => .status 0x30#8
  | .arbLost => .status 0x38#8
  | .mrSlaAck => .status 0x40#8
  | .mrSlaNack => .status 0x48#8
  | .mrDataAck => .status 0x50#8
  | .mrDataNack => .status 0x58#8
  | .srSlaAck => .status 0x60#8
  | .srArbLostSlaAck => .status 0x68#8
  | .srGcallAck => .status 0x70#8
  | .srArbLostGcallAck => .status 0x78#8
  | .srDataAck => .status 0x80#8
  | .srDataNack => .status 0x88#8
  | .srGcallDataAck => .status 0x90#8
  | .srGcallDataNack => .status 0x98#8
  | .srStop => .status 0xA0#8
  | .stSlaAck => .status 0xA8#8
  | .stArbLostSlaAck => .status 0xB0#8
  | .stDataAck => .status 0xB8#8
  | .stDataNack => .status 0xC0#8
  | .stLastData => .status 0xC8#8
  | .unmappedD0 => .status 0xD0#8
  | .unmappedD8 => .status 0xD8#8
  | .unmappedE0 => .status 0xE0#8
  | .unmappedE8 => .status 0xE8#8
  | .unmappedF0 => .status 0xF0#8
  | .noInfo => .status 0xF8#8

/-! ### The opcode table -/

/-- A row of spec/opcode_table.json: its width in bits, its match and its mask. -/
structure TableRow where
  nbits : Nat
  matchBits : Nat
  mask : Nat
deriving DecidableEq, Repr

/-- The row an instruction belongs to, copied from spec/opcode_table.json. -/
def Instr.row (i : Instr) : TableRow :=
  match i with
  | .beginCmd _ _ => ⟨64, 0x0100000000000000, 0xFF80000000000000⟩
  | .sbegin _ _ => ⟨64, 0x0200000000000000, 0xFF80000000000000⟩
  | .endCmd => ⟨64, 0x0300000000000000, 0xFF00000000000000⟩
  | .wreq _ _ => ⟨64, 0x0400000000000000, 0xFF00000000000000⟩
  | .wreq1 _ _ _ => ⟨64, 0x0500000000000000, 0xFF00000000000000⟩
  | .wreq2 _ _ _ => ⟨64, 0x0600000000000000, 0xFF00000000000000⟩
  | .rreq _ _ => ⟨64, 0x0700000000000000, 0xFF00000000000000⟩
  | .awaitCmd _ => ⟨64, 0x0800000000000000, 0xFF00000000000000⟩
  | .poll => ⟨64, 0x0900000000000000, 0xFF00000000000000⟩
  | .setrb _ _ => ⟨64, 0x0A00000000000000, 0xFF00000000000000⟩
  | .setwb _ _ => ⟨64, 0x0B00000000000000, 0xFF00000000000000⟩
  | .rearm => ⟨64, 0x0C00000000000000, 0xFF00000000000000⟩
  | .busError => ⟨8, 0x00, 0xF8⟩
  | .start => ⟨8, 0x08, 0xF8⟩
  | .repStart => ⟨8, 0x10, 0xF8⟩
  | .mtSlaAck => ⟨8, 0x18, 0xF8⟩
  | .mtSlaNack => ⟨8, 0x20, 0xF8⟩
  | .mtDataAck => ⟨8, 0x28, 0xF8⟩
  | .mtDataNack => ⟨8, 0x30, 0xF8⟩
  | .arbLost => ⟨8, 0x38, 0xF8⟩
  | .mrSlaAck => ⟨8, 0x40, 0xF8⟩
  | .mrSlaNack => ⟨8, 0x48, 0xF8⟩
  | .mrDataAck => ⟨8, 0x50, 0xF8⟩
  | .mrDataNack => ⟨8, 0x58, 0xF8⟩
  | .srSlaAck => ⟨8, 0x60, 0xF8⟩
  | .srArbLostSlaAck => ⟨8, 0x68, 0xF8⟩
  | .srGcallAck => ⟨8, 0x70, 0xF8⟩
  | .srArbLostGcallAck => ⟨8, 0x78, 0xF8⟩
  | .srDataAck => ⟨8, 0x80, 0xF8⟩
  | .srDataNack => ⟨8, 0x88, 0xF8⟩
  | .srGcallDataAck => ⟨8, 0x90, 0xF8⟩
  | .srGcallDataNack => ⟨8, 0x98, 0xF8⟩
  | .srStop => ⟨8, 0xA0, 0xF8⟩
  | .stSlaAck => ⟨8, 0xA8, 0xF8⟩
  | .stArbLostSlaAck => ⟨8, 0xB0, 0xF8⟩
  | .stDataAck => ⟨8, 0xB8, 0xF8⟩
  | .stDataNack => ⟨8, 0xC0, 0xF8⟩
  | .stLastData => ⟨8, 0xC8, 0xF8⟩
  | .unmappedD0 => ⟨8, 0xD0, 0xF8⟩
  | .unmappedD8 => ⟨8, 0xD8, 0xF8⟩
  | .unmappedE0 => ⟨8, 0xE0, 0xF8⟩
  | .unmappedE8 => ⟨8, 0xE8, 0xF8⟩
  | .unmappedF0 => ⟨8, 0xF0, 0xF8⟩
  | .noInfo => ⟨8, 0xF8, 0xF8⟩

/-- The bits of a code, numbered as spec/opcode_table.json numbers them. -/
def Code.bits (c : Code) : Nat :=
  match c with
  | .command w => w.toNat
  | .status b => b.toNat

/-- The width of a code in bits (R91). -/
def Code.nbits (c : Code) : Nat :=
  match c with
  | .command _ => 64
  | .status _ => 8

/-- The code with the given table bits: rows of 8 bits are status bytes, all wider ones command words (R91). -/
def codeOfTable (nbits w : Nat) : Code :=
  if nbits ≤ 8 then .status (BitVec.ofNat 8 w) else .command (BitVec.ofNat 64 w)

/-- The instruction the decoder reads from an instruction whose table bits are `w`. -/
def decodeTableWord (nbits w : Nat) : Option Instr :=
  match decode (codeOfTable nbits w) with
  | .ok i => some i
  | .error _ => none

end Sys2Proof
end

