-- ==== Sys2Proof/Config.lean ====
section
/-! DEFINITION. What an implementation fixes (R6) and the one free value of the model (U6). -/

namespace Sys2Proof

/-- The addresses of the five bus controller registers (R6, R58). No rule uses them: the rules name the registers. -/
structure RegisterAddresses where
  cr : Ptr
  sr : Ptr
  dr : Ptr
  ar : Ptr
  brr : Ptr
deriving DecidableEq, Repr

/-- R6, R54: HDR_ADDR is nonzero and HDR_ADDR + 1 does not wrap. -/
def headerAddressOk (a : Ptr) : Bool := a != 0#16 && a != 0xFFFF#16

/-- The implementation parameters that R6 calls OPEN. The model takes them as data of the state: no step writes them, so a
statement about every state is about every value of them. `headerOk` makes R6's condition on HDR_ADDR part of the type.
DESIGN CHOICE (log entry 1): where they are held. -/
structure Params where
  /-- HDR_ADDR: where the header register is visible to engine reads (R54). -/
  hdrAddr : Ptr
  /-- BITRATE: what BEGIN and SBEGIN write to BRR (R35). -/
  bitrate : Byte
  /-- PRESCALE: what BEGIN and SBEGIN write to SR.PS (R32). -/
  prescale : BitVec 2
  /-- The five register addresses (R6, R58). -/
  regAddresses : RegisterAddresses
  /-- R6: the condition on HDR_ADDR. -/
  headerOk : headerAddressOk hdrAddr = true
deriving DecidableEq, Repr

/-- R6: BITRATE 72 and PRESCALE 0 are the defaults; HDR_ADDR 0x0060 is the value of the spec's test vectors
(95_test_vectors.md, U15). DESIGN CHOICE (log entry 1): HDR_ADDR. PRESUMED (log entry 1): the register addresses, which
no rule uses, are those of an ATmega328P. -/
def Params.default : Params :=
  ⟨0x0060#16, 72#8, 0#2, ⟨0x00BC#16, 0x00B9#16, 0x00BB#16, 0x00BA#16, 0x00B8#16⟩, by decide⟩

/-- The content of a data-space byte that nobody has written: "any value, owned by the host" (U6, R51).
A free value: nothing constrains it. DESIGN CHOICE (log entry 2): one value for each address. -/
opaque Config.unwrittenByte : Ptr → Byte

end Sys2Proof
end

