-- ==== Sys2Proof/Machine/State.lean ====
section
/-! DEFINITION. The state of the machine: every register of R10, the bus controller's registers (R30 to R35), the
hidden state (R36), the data space (R50), the ports (R38), what the environment agents hold (R231, R222), the
parameters (R6) and the model's own list of turns; the reasons a step can stop; and reset (R39). -/

namespace Sys2Proof.Machine

/-- R11: EngineState. Values 6 and 7 of the 3-bit register are never written and have no meaning (U3). -/
inductive EngineState where
  | error | idle | mt | mr | st | sr
deriving DecidableEq, Repr

/-- R12: who is bound. Value 3 is never written and has no meaning (U3). -/
inductive Role where
  | none | master | slave
deriving DecidableEq, Repr

/-- R86: a descriptor slot or a slave buffer, the pair `.buf`, `.len`. -/
structure Segment where
  buf : Ptr
  len : Half
deriving DecidableEq, Repr

/-- R17: VEC, five descriptor slots. -/
structure Descriptor where
  slot0 : Segment
  slot1 : Segment
  slot2 : Segment
  slot3 : Segment
  slot4 : Segment
deriving DecidableEq, Repr

/-- R36: a control command handed to the BUS agent with DR at the time of the write. -/
structure BusCommand where
  cmd : Byte
  dr : Byte
deriving DecidableEq, Repr

/-- R88: the event types. No other is ever pushed. -/
inductive EventType where
  | error | writeCompleted | readCompleted
deriving DecidableEq, Repr

/-- R87: an event record. -/
structure EventRecord where
  type : EventType
  target : Half
  value : Half
deriving DecidableEq, Repr

/-- R38, R140, R160: a command port. A presented word stays presented until its command has executed; the response
stays on the port until the next word is presented. DESIGN CHOICE (log entry 6): the handshake. -/
inductive CommandPort where
  | idle
  | presented (w : CmdWord)
  | answered (r : RespWord)
deriving DecidableEq, Repr

/-- R231: the mode of the BUS agent. The engine cannot read it. -/
inductive BusMode where
  | off | free | mStart | mAddr | mTx | mRx | sRx | sTx
deriving DecidableEq, Repr

/-- R222: a call-back in progress, `on_request(buffer, count)`. -/
structure OnRequest where
  buf : Ptr
  count : Half
deriving DecidableEq, Repr

/-- One turn of one agent (R3, R60, R258). -/
inductive Turn where
  /-- The platform's reset (R280). -/
  | reset
  /-- HOST presents a command word (R140). -/
  | hostPresent (w : CmdWord)
  /-- HOST stores a byte into the data space (R63, R290), if it is not waiting for a response (R160, R258). -/
  | hostStore (a : Ptr) (b : Byte)
  /-- ENGINE-COMMAND: the presented command executes or holds (R140, R160). -/
  | command
  /-- ENGINE-EVENT: the event step (R170). -/
  | event
  /-- BUS delivers a bus event with a status code and a data byte (R230). -/
  | deliver (code data : Byte)
  /-- BUS finishes a command that has no answer (R236). -/
  | finish
  /-- EVENTQ takes the oldest record and dispatches it (R262, R222). -/
  | dispatch
  /-- The call-back issues a host command (R222): it presents a word and the engine executes it. -/
  | callCommand (w : CmdWord)
  /-- The call-back stores a byte into the data space: it may "fill the read buffer" (R222). -/
  | callStore (a : Ptr) (b : Byte)
  /-- `on_request` returns and EVENTQ presents REARM, which the engine executes (R222). -/
  | callReturn
deriving DecidableEq, Repr

/-- R50: the data space as a list of written bytes, addresses strictly rising. An address that is not listed has
no value here; the engine's read of it is a free value (U6, log entry 2). -/
abbrev Memory := List Host.Cell

/-- The state. -/
structure State where
  /-- STATE (R11). -/
  state : EngineState
  /-- ROLE (R12). -/
  role : Role
  /-- DEV, the bound device address (R13). -/
  dev : Byte
  /-- ADDR, the BusAddress of the request (R13). -/
  addr : Byte
  /-- COUNT, 16-bit two's complement (R14). -/
  count : Half
  /-- NEXT (R15). -/
  next : Ptr
  /-- LAST (R15). -/
  last : Ptr
  /-- IX, 0 to 4 (R16). -/
  ix : Fin 5
  /-- VEC (R17). -/
  vec : Descriptor
  /-- HDR[0] (R18). -/
  hdr0 : Byte
  /-- HDR[1] (R18). -/
  hdr1 : Byte
  /-- TARGET, 0 is none (R19). -/
  target : Half
  /-- SLV_WR (R20). -/
  slvWr : Segment
  /-- SLV_RD (R20). -/
  slvRd : Segment
  /-- PUE (R21). -/
  pue : Bool
  /-- CR, ControlRegister (R31). -/
  cr : Byte
  /-- SR, StatusRegister, as last written: the status of the last bus event and PS (R32). `State.srValue` is what SR
  reads as (R242). -/
  sr : Byte
  /-- DR, DataRegister (R33). -/
  dr : Byte
  /-- AR, AddressRegister (R34). -/
  ar : Byte
  /-- BRR, BitRateRegister (R35). -/
  brr : Byte
  /-- PENDING (R36). -/
  pending : Option BusCommand
  /-- EVQ, oldest first (R36). -/
  evq : List EventRecord
  /-- CALLBACK_DUE (R36). -/
  callbackDue : Bool
  /-- The data space (R50). -/
  mem : Memory
  /-- The command port (R38). -/
  port : CommandPort
  /-- The port on which the EVENTQ agent's call-back gets the response to its last command (R222, log entry 14). -/
  callPort : CommandPort
  /-- The call-back in progress (R222). -/
  onRequest : Option OnRequest
  /-- The BUS agent's mode (R231). -/
  busMode : BusMode
  /-- The last event delivered in the current transfer (R246). -/
  busLast : Option Condition
  /-- The implementation parameters (R6). No step writes them. -/
  params : Params
  /-- The model's own field: the turns the agents take next, in order (R60, R258, log entry 3). -/
  script : List Turn
deriving DecidableEq, Repr

/-- Reasons a step stops with a fault. There are none: "The rules are total: every (engine state, status byte) pair
has exactly one outcome, and none of them is a fault" (R170); a memory access never faults (R52, R53). -/
inductive Fault where
deriving DecidableEq, Repr

/-- Reasons a step is refused. -/
inductive Refusal where
  /-- Raised by an arm of exec whose instruction has no meaning yet. Safe. No arm raises it. -/
  | notModelled (mnemonic : String)
deriving DecidableEq, Repr

/-- The outcome of a step. -/
abbrev Out := Host.Outcome State Fault Refusal

/-- R39: the state after reset. Nothing is listed in the data space, whose content reset does not specify (R51);
the BUS agent is OFF (R231); no command is presented. `params` and `script` are the model's choice and no statement rests
on them (log entries 1 and 3). -/
def State.reset : State :=
  { state := .idle, role := .none, dev := 0x00#8, addr := 0x00#8, count := 0#16, next := 0#16, last := 0#16, ix := 0,
    vec := ⟨⟨0#16, 0#16⟩, ⟨0#16, 0#16⟩, ⟨0#16, 0#16⟩, ⟨0#16, 0#16⟩, ⟨0#16, 0#16⟩⟩,
    hdr0 := 0x00#8, hdr1 := 0x00#8, target := 0#16, slvWr := ⟨0#16, 0#16⟩, slvRd := ⟨0#16, 0#16⟩, pue := false,
    cr := 0x00#8, sr := 0xF8#8, dr := 0xFF#8, ar := 0xFE#8, brr := 0x00#8,
    pending := none, evq := [], callbackDue := false, mem := [],
    port := .idle, callPort := .idle, onRequest := none, busMode := .off, busLast := none,
    params := Params.default, script := [] }

end Sys2Proof.Machine
end

