-- ==== Sys2Proof/Machine/Flags.lean ====
section
/-! DEFINITION. The encodings of the enumerated registers, the bits of CR and SR, the control command constants, and
the predicates that play the part of flags (R11, R12, R23, R31, R32, R84, R240, R257). -/

namespace Sys2Proof.Machine

/-! ### Encodings -/

/-- R11: the 3-bit encoding of STATE. -/
def EngineState.code (e : EngineState) : BitVec 3 :=
  match e with
  | .error => 0#3
  | .idle => 1#3
  | .mt => 2#3
  | .mr => 3#3
  | .st => 4#3
  | .sr => 5#3

/-- R12: the 2-bit encoding of ROLE. -/
def Role.code (r : Role) : BitVec 2 :=
  match r with
  | .none => 0#2
  | .master => 1#2
  | .slave => 2#2

/-- R88: the event type codes. -/
def EventType.code (t : EventType) : Byte :=
  match t with
  | .error => 0x01#8
  | .writeCompleted => 0x02#8
  | .readCompleted => 0x03#8

/-- R87: the 40-bit event record. -/
def EventRecord.word (r : EventRecord) : EventWord := ((r.type.code ++ r.target) ++ r.value : BitVec (8 + 16 + 16))

/-- R76: the 24-bit response word, ST and RESULT. -/
def responseWord (e : EngineState) (result : Half) : RespWord := ((0#5 ++ e.code) ++ result : BitVec (5 + 3 + 16))

/-- R77: "accepted" of a request, SETRB, SETWB and REARM. -/
def accepted : Half := 0#16
/-- R77: "refused" of a request, SETRB, SETWB and REARM, and COUNT after an error (R251): -1. -/
def minusOne : Half := 0xFFFF#16
/-- R77: the result of an illegal encoding: -2. -/
def illegal : Half := 0xFFFE#16
/-- R77: true of BEGIN, SBEGIN and END. -/
def resultTrue : Half := 1#16
/-- R77: false of BEGIN, SBEGIN and END. -/
def resultFalse : Half := 0#16

/-! ### The control commands (R84) -/

/-- OFF_CMD. -/
def offCmd : Byte := 0x00#8
/-- IDLE_CMD: EA, EN, IE. -/
def idleCmd : Byte := 0x45#8
/-- START_CMD: INT, EA, STA, EN, IE. -/
def startCmd : Byte := 0xE5#8
/-- DATA_CMD: INT, EN, IE. -/
def dataCmd : Byte := 0x85#8
/-- ACK_CMD: INT, EA, EN, IE. -/
def ackCmd : Byte := 0xC5#8
/-- NACK_CMD: the value of DATA_CMD. -/
def nackCmd : Byte := 0x85#8
/-- STOP_CMD: INT, EA, STO, EN, IE. -/
def stopCmd : Byte := 0xD5#8
/-- RELEASE_CMD: the value of ACK_CMD. -/
def releaseCmd : Byte := 0xC5#8

/-! ### The bits of CR (R31) -/

/-- CR[7], INT. -/
def State.int (s : State) : Bool := s.cr.getLsbD 7
/-- CR[6], EA. -/
def State.ea (s : State) : Bool := s.cr.getLsbD 6
/-- CR[5], STA. -/
def State.sta (s : State) : Bool := s.cr.getLsbD 5
/-- CR[4], STO. -/
def State.sto (s : State) : Bool := s.cr.getLsbD 4
/-- CR[2], EN. -/
def State.en (s : State) : Bool := s.cr.getLsbD 2
/-- CR[0], IE. -/
def State.ie (s : State) : Bool := s.cr.getLsbD 0

/-- R31: what CR holds after `CRwrite(v)`: a 1 in bit 7 clears INT, bits 6:4, 2 and 0 take the written value, bits 3
and 1 stay 0. -/
def crAfterWrite (cr v : Byte) : Byte := (cr &&& ~~~v &&& 0x80#8) ||| (v &&& 0x75#8)

/-- R230: CR after the BUS agent sets INT. -/
def crWithInt (cr : Byte) : Byte := cr ||| 0x80#8

/-- R236: CR after the BUS agent clears STO. -/
def crWithoutSto (cr : Byte) : Byte := cr &&& 0xEF#8

/-- R32, R141: SR after the prescaler field is written. -/
def srWithPrescale (sr : Byte) (ps : BitVec 2) : Byte := (sr &&& 0xFC#8) ||| ps.zeroExtend 8

/-- R230: SR after its status field is written, `SR[7:3] <- code[7:3]`. -/
def srWithStatus (sr code : Byte) : Byte := (code &&& 0xF8#8) ||| (sr &&& 0x07#8)

/-- What SR reads as: while INT is 0 its status is NO_INFO, 0xF8 (R242); while INT is 1 it is the status of the bus
event that waits (R32). PS reads as written. DEDUCED (log entry 11): how R32 and R242 go together. -/
def State.srValue (s : State) : Byte := if s.int then s.sr else srWithStatus s.sr 0xF8#8

/-! ### Predicates -/

/-- R9, R11: STATE is in flight, `STATE > IDLE` by the numeric encoding. -/
def EngineState.inFlight (e : EngineState) : Bool := (1#3).ult e.code

/-- BUSY (R23). -/
def State.busy (s : State) : Bool := s.state.inFlight

/-- FAILED (R23): `COUNT < 0`. -/
def State.failed (s : State) : Bool := s.count.msb

/-- R257: the event step is enabled. -/
def State.eventEnabled (s : State) : Bool := s.int && s.ie && s.en

/-- R105: the bytes left in the active segment, `(LAST - NEXT) mod 2^16`. -/
def State.rem (s : State) : Half := s.last - s.next

/-- R240: the BUS agent may deliver an address match. -/
def State.armed (s : State) : Bool := s.en && s.ea && s.ar != 0#8 && s.busMode == .free && !s.int

/-- R179, R180: the master's decision, ACK when at least two bytes fit. -/
def masterAck (rem : Half) : Byte := if 2 ≤ rem.toNat then ackCmd else nackCmd

/-- R206, R210, R219: the slave's decision, ACK when at least one byte is left. -/
def slaveAck (rem : Half) : Byte := if 1 ≤ rem.toNat then ackCmd else nackCmd

/-- R40: the phases of the source's section 4.3. They are not stored; `last` is the last control command written. -/
inductive TransferPhase where
  | startIssued | addressPhase | dataPhase | none
deriving DecidableEq, Repr

/-- R40: the phase as a function of STATE, the last control command and the bus event it answered. STOP-issued has no
duration and is no value. -/
def transferPhase (e : EngineState) (answered : Option Condition) (cmd : Byte) : TransferPhase :=
  if e = .mt ∨ e = .mr then
    if cmd = startCmd then .startIssued
    else match answered with
      | some .start | some .repStart => if cmd = dataCmd then .addressPhase else .none
      | some .mtSlaAck | some .mtDataAck => if cmd = dataCmd then .dataPhase else .none
      | some .mrSlaAck | some .mrDataAck => if cmd = ackCmd ∨ cmd = nackCmd then .dataPhase else .none
      | _ => .none
  else .none

end Sys2Proof.Machine
end

