-- ==== Sys2Proof/Machine/Bus.lean ====
section
/-! DEFINITION. The BUS agent (45_bus_controller_contract.md): the mode it keeps (R231), what a control command does
to that mode, delivering an event (R230), finishing a command that has no answer (R236), and the contract, the
events it may legally deliver next (R246), as a predicate. The engine's rules do not depend on the contract. -/

namespace Sys2Proof.Machine

/-- Events of a transfer in which the engine is an addressed slave receiver (R231, row S_RX). The row names the SR_
address-match events and SR_DATA_ACK. DESIGN CHOICE (log entry 12): SR_GCALL_DATA_ACK, which no row names, goes with
SR_DATA_ACK. -/
def slaveRxGoesOn (c : Condition) : Bool :=
  match c with
  | .srSlaAck | .srArbLostSlaAck | .srGcallAck | .srArbLostGcallAck | .srDataAck | .srGcallDataAck => true
  | _ => false

/-- Events of a transfer in which the engine is an addressed slave transmitter (R231, row S_TX). The row names ST_SLA_ACK and
ST_DATA_ACK. DESIGN CHOICE (log entry 12): ST_ARB_LOST_SLA_ACK, which no row names, goes with ST_SLA_ACK. -/
def slaveTxGoesOn (c : Condition) : Bool :=
  match c with
  | .stSlaAck | .stArbLostSlaAck | .stDataAck => true
  | _ => false

/-- R231: the mode that ACK_CMD or NACK_CMD enters after a receive or transmit event. -/
def byteMode (last : Option Condition) : Option BusMode :=
  match last with
  | some .mrSlaAck | some .mrDataAck => some .mRx
  | some c => if slaveRxGoesOn c then some .sRx else if slaveTxGoesOn c then some .sTx else none
  | none => none

/-- R231: the mode after a control command is written. DEDUCED (log entry 9): the mode changes at the write.
DESIGN CHOICE (log entry 12): a command R231 gives no row for leaves the mode as it is. -/
def modeAfter (mode : BusMode) (last : Option Condition) (v : Byte) : BusMode :=
  if v = offCmd then .off
  else if v = idleCmd then (if mode = .off then .free else mode)
  else if v = startCmd then .mStart
  else if v = stopCmd then .free
  else if v = ackCmd then (byteMode last).getD .free
  else if v = dataCmd then
    match last with
    | some .start | some .repStart => .mAddr
    | some .mtSlaAck | some .mtDataAck => .mTx
    | _ => (byteMode last).getD mode
  else mode

/-- R246: the last event of the current transfer after a control command is written: none when the controller is FREE
or OFF, or starts a transfer from there. DESIGN CHOICE (log entry 12): START_CMD written in any other mode keeps the last
event, so that REP_START is its legal answer, also where R233 names no answer: in M_START after its event, in S_RX or
S_TX, and after ARB_LOST, when the bus is not owned (R238). No rule of the engine writes START_CMD there on a run that
respects the contract. -/
def lastEventAfter (mode : BusMode) (last : Option Condition) (v : Byte) : Option Condition :=
  let m := modeAfter mode last v
  if m = .off ∨ m = .free ∨ (v = startCmd ∧ (mode = .free ∨ mode = .off)) then none else last

/-- R31: PENDING after `CRwrite(v)`. -/
def pendingAfter (pending : Option BusCommand) (v dr : Byte) : Option BusCommand :=
  if v.getLsbD 7 = true ∨ v.getLsbD 5 = true ∨ v = offCmd then some ⟨v, dr⟩ else pending

/-- R230: the events that bring a received byte. -/
def bringsByte (c : Condition) : Bool :=
  match c with
  | .mrDataAck | .mrDataNack | .srDataAck | .srDataNack | .srGcallDataAck | .srGcallDataNack => true
  | _ => false

/-- R230: `deliver(code, data)`, taken only when EN is 1 and INT is 0. Any code may come: the contract is a premise of
the statements that need it (D39, log entry 8). DEDUCED (log entry 9): a delivery keeps the mode. At the end of a slave
transfer (SR_STOP, SR_DATA_NACK, ST_DATA_NACK, ST_LAST_DATA; R243, R244) FREE is entered at the control write of the reaction,
as after every other event. -/
def deliver (code data : Byte) (s : State) : State :=
  if s.en && !s.int then
    { s with
      sr := srWithStatus s.sr code
      dr := if bringsByte (decodeCondition code) then data else s.dr
      pending := none
      cr := crWithInt s.cr
      busLast := some (decodeCondition code) }
  else s

/-- R236: the pending command has no answer: STOP_CMD, OFF_CMD, or RELEASE_CMD or ACK_CMD outside a byte. -/
def noAnswer (mode : BusMode) (p : BusCommand) : Bool :=
  p.cmd == stopCmd || p.cmd == offCmd || (p.cmd == releaseCmd && mode == .free)

/-- R236: the BUS agent finishes a command that has no answer: STO is cleared after a STOP, PENDING is cleared, no
event. It takes no step while INT is 1 or EN is 0 (R230), but OFF_CMD takes effect at once. DEDUCED (log entry 10). The mode is kept: R236's
mode FREE or OFF was entered at the control write. DEDUCED (log entry 9). -/
def finish (s : State) : State :=
  match s.pending with
  | none => s
  | some p =>
    if noAnswer s.busMode p && (p.cmd == offCmd || (s.en && !s.int)) then
      { s with
        pending := none
        cr := if p.cmd = stopCmd then crWithoutSto s.cr else s.cr }
    else s

/-! ### The contract (R233 to R246) -/

/-- R246: the legal next events. The data byte of a receive event is any byte (R237, R243). In mode FREE an address match
needs that no command is pending: the table's row has command "none", and its last row has no event after STOP_CMD,
RELEASE_CMD or OFF_CMD, until the BUS agent has finished it (R236). START_CMD after an event of the same transfer asks for a
repeated START (R233). DESIGN CHOICE (log entry 12): which events count as such, see `lastEventAfter`. -/
def legalNext (s : State) : List Condition :=
  match s.busMode with
  | .off => []
  | .free => if s.armed && s.pending.isNone then [.srSlaAck, .stSlaAck] else []
  | .mStart =>
    match s.pending with
    | some p =>
      if p.cmd = startCmd then (match s.busLast with | none => [.start] | some _ => [.repStart]) else []
    | none => []
  | .mAddr =>
    match s.pending with
    | some p =>
      if p.cmd = dataCmd then
        (if p.dr.getLsbD 0 = false then [.mtSlaAck, .mtSlaNack, .arbLost, .busError]
         else [.mrSlaAck, .mrSlaNack, .arbLost, .busError])
      else []
    | none => []
  | .mTx =>
    match s.pending with
    | some p => if p.cmd = dataCmd then [.mtDataAck, .mtDataNack, .arbLost, .busError] else []
    | none => []
  | .mRx =>
    match s.pending with
    | some p =>
      if p.cmd = ackCmd then [.mrDataAck, .busError]
      else if p.cmd = nackCmd then [.mrDataNack, .arbLost, .busError] else []
    | none => []
  | .sRx =>
    match s.pending with
    | some p =>
      if p.cmd = ackCmd then [.srDataAck, .srStop, .busError]
      else if p.cmd = nackCmd then [.srDataNack, .srStop, .busError] else []
    | none => []
  | .sTx =>
    match s.pending with
    | some p =>
      if p.cmd = ackCmd then [.stDataAck, .stDataNack, .busError]
      else if p.cmd = nackCmd then [.stDataNack, .stLastData, .busError] else []
    | none => []

/-- R246: the contract allows the BUS agent to deliver `code` now. -/
def legalDelivery (s : State) (code : Byte) : Bool := (legalNext s).contains (decodeCondition code)

end Sys2Proof.Machine
end

