-- ==== Sys2Proof/Machine/Operands.lean ====
section
/-! DEFINITION. The operand forms: how a command's fields become register values (R73, R81), the data space read and
written one byte at a time (R50 to R54), the byte at NEXT with post-increment (R175, R180), and the total length of
a request (R108). -/

namespace Sys2Proof.Machine

/-! ### Command operands -/

/-- R73, R81: `{A8[6:0], 0}`, the BusAddress byte with the read/write bit 0. -/
def busAddress (a8 : Byte) : Byte := a8 <<< 1

/-- R143: `DEV OR op`, the BusAddress of a request; `op` is true for a read. -/
def requestAddress (dev : Byte) (op : Bool) : Byte := if op then dev ||| 1#8 else dev

/-- R73: the more significant byte of the 2-byte header, `H16[15:8]`. -/
def headerHigh (h16 : Half) : Byte := h16.extractLsb' 8 8

/-- R73: the less significant byte of the 2-byte header, `H16[7:0]`. -/
def headerLow (h16 : Half) : Byte := h16.extractLsb' 0 8

/-- R108: the length a payload adds to the total, in unbounded integers. A null buffer adds nothing. -/
def payloadLength (buf : Ptr) (size : Half) : Nat := if buf = 0#16 then 0 else size.toNat

/-! ### The data space -/

/-- The byte written at an address, if any (R50). -/
def Memory.read (m : Memory) (a : Nat) : Option Byte :=
  match m with
  | [] => none
  | (k, b) :: rest => if k = a then some b else Memory.read rest a

/-- Store a byte, keeping the addresses strictly rising (R53). -/
def Memory.write (m : Memory) (a : Nat) (v : Byte) : Memory :=
  match m with
  | [] => [(a, v)]
  | (k, b) :: rest =>
    if a < k then (a, v) :: (k, b) :: rest
    else if a = k then (a, v) :: rest
    else (k, b) :: Memory.write rest a v

/-- Every listed address lies above `lo` and the addresses rise strictly. -/
def Memory.risingFrom (m : Memory) (lo : Nat) : Bool :=
  match m with
  | [] => true
  | (k, _) :: rest => decide (lo ≤ k) && decide (k < 65536) && Memory.risingFrom rest (k + 1)

/-- The canonical form of the data space: addresses strictly rising and below 2^16 (R50). An unlisted address has no
value, so no entry can equal it. -/
def Memory.wf (m : Memory) : Bool := Memory.risingFrom m 0

/-- The data space's own byte at an address, under the header window: the byte written there, else the free value of
that address (R51, U6). -/
def State.dataByte (s : State) (a : Ptr) : Byte := (Memory.read s.mem a.toNat).getD (Config.unwrittenByte a)

/-- R52, R54: `MemRead(addr, 1)`, an engine read: HDR[0] and HDR[1] show at HDR_ADDR and HDR_ADDR + 1. -/
def memRead (a : Ptr) (s : State) : Byte :=
  if a = s.params.hdrAddr then s.hdr0
  else if a = s.params.hdrAddr + 1#16 then s.hdr1
  else s.dataByte a

/-- R53: `MemWrite(addr, 1, v)`: the byte goes to the data space, under the header window too. -/
def memWrite (a : Ptr) (v : Byte) (s : State) : State := { s with mem := Memory.write s.mem a.toNat v }

/-! ### The byte at NEXT -/

/-- R175, R180, R210, R219: after a byte has moved, NEXT and COUNT go up by one. -/
def bump (s : State) : State := { s with next := s.next + 1#16, count := s.count + 1#16 }

/-- R175, R219: `DR <- MemRead(NEXT, 1)`, then NEXT and COUNT. -/
def loadByte (s : State) : State := bump { s with dr := memRead s.next s }

/-- R180, R181, R210: the guarded store of a received byte: only while `rem > 0` (D26). -/
def storeByte (s : State) : State :=
  if s.rem = 0#16 then s else bump (memWrite s.next s.dr s)

end Sys2Proof.Machine
end

