-- ==== Sys2Proof/Machine/Ops.lean ====
section
/-! DEFINITION. The shared operations of the rules: CRwrite (R31), push (R260), respond and refuse (R76, R8), stop
(R171), the descriptor builds (R101 to R103, R107), the sequencer (R104 to R106, R109), request (R143), the transfer
bodies shared by the event rules (R175, R178, R180, R205, R215, R219), and the entry of the event step (R257, R263),
the block's form of taking an exception. -/

namespace Sys2Proof.Machine

/-! ### Registers and ports -/

/-- R31: `CRwrite(v)`: CR, and the command handed to the BUS agent with DR as it is now (R36, R231). -/
def crWrite (v : Byte) (s : State) : State :=
  { s with
    cr := crAfterWrite s.cr v
    pending := pendingAfter s.pending v s.dr
    busMode := modeAfter s.busMode s.busLast v
    busLast := lastEventAfter s.busMode s.busLast v }

/-- R260: `push(type)`: the record carries COUNT as it is now; nothing is pushed while TARGET is 0. -/
def push (type : EventType) (s : State) : State :=
  if s.target = 0#16 then s else { s with evq := s.evq ++ [⟨type, s.target, s.count⟩] }

/-- R76: `respond(r)` ends the command step; ST is STATE after the step. -/
def respond (r : Half) (s : State) : State := { s with port := .answered (responseWord s.state r) }

/-- R8: `refuse(r)` is `respond(r)` with no other state change. -/
def refuse (r : Half) (s : State) : State := respond r s

/-- R171: `stop(s, type)`, here with the new state `e`; COUNT is final before. -/
def stop (e : EngineState) (type : EventType) (s : State) : State :=
  push type { crWrite stopCmd s with state := e }

/-- R178, R182, R183: the error ending of a master transfer. -/
def failWithStop (s : State) : State := stop .error .error { s with count := minusOne }

/-! ### The descriptor builder (R100) -/

/-- R101, R107: the raw buffer, then the sentinel. -/
def buildRaw (buf : Ptr) (size : Half) (s : State) : State :=
  { s with vec := { s.vec with slot0 := ⟨buf, size⟩, slot1 := ⟨0#16, 0#16⟩ } }

/-- R102: a 1-byte header segment, the payload, the sentinel. HDR[1] is unchanged. -/
def buildHeader1 (header : Byte) (buf : Ptr) (size : Half) (s : State) : State :=
  { s with
    hdr0 := header
    vec := { s.vec with slot0 := ⟨s.params.hdrAddr, 1#16⟩, slot1 := ⟨buf, size⟩, slot2 := ⟨0#16, 0#16⟩ } }

/-- R103: a 2-byte header segment, more significant byte first, the payload, the sentinel. -/
def buildHeader2 (header : Half) (buf : Ptr) (size : Half) (s : State) : State :=
  { s with
    hdr0 := headerHigh header
    hdr1 := headerLow header
    vec := { s.vec with slot0 := ⟨s.params.hdrAddr, 2#16⟩, slot1 := ⟨buf, size⟩, slot2 := ⟨0#16, 0#16⟩ } }

/-! ### The sequencer -/

/-- R17: slot `i` of VEC. -/
def Descriptor.slot (v : Descriptor) (i : Fin 5) : Segment :=
  match i with
  | 0 => v.slot0
  | 1 => v.slot1
  | 2 => v.slot2
  | 3 => v.slot3
  | 4 => v.slot4

/-- R109: slot `i` ends the descriptor; slot 4 always does. -/
def atSentinel (v : Descriptor) (i : Fin 5) : Bool := (v.slot i).buf == 0#16 || i == 4

/-- R108: the total advertised length, the sum of the lengths before the first sentinel, in unbounded integers. -/
def totalFrom (v : Descriptor) : Nat → Fin 5 → Nat
  | 0, _ => 0
  | n + 1, i => if atSentinel v i then 0 else (v.slot i).len.toNat + totalFrom v n (i + 1)

/-- R108: `total(VEC)`. -/
def Descriptor.total (v : Descriptor) : Nat := totalFrom v 5 0

/-- R104: `seg_load(i)`. COUNT is not touched. -/
def segLoad (i : Fin 5) (s : State) : State :=
  if atSentinel s.vec i then { s with ix := i, next := 0#16, last := 0#16 }
  else { s with ix := i, next := (s.vec.slot i).buf, last := (s.vec.slot i).buf + (s.vec.slot i).len }

/-- R106: at most `n` iterations of the loop of `advance()`. -/
def advanceLoop : Nat → State → State
  | 0, s => s
  | n + 1, s => if s.rem = 0#16 ∧ atSentinel s.vec s.ix = false then advanceLoop n (segLoad (s.ix + 1) s) else s

/-- R106: `advance()`: it ends after at most 4 iterations because slot 4 is a sentinel. -/
def advance (s : State) : State := advanceLoop 4 s

/-! ### Requests -/

/-- R143: the three tests, made before any write. -/
def requestRefused (total : Nat) (s : State) : Bool :=
  s.role != .master || s.state != .idle || decide (32767 < total)

/-- R143: the accepted request, after the builder has written VEC and HDR. -/
def requestAccept (op : Bool) (s : State) : State :=
  respond accepted
    (crWrite startCmd
      { segLoad 0 s with
        count := 0#16
        addr := requestAddress s.dev op
        state := if op then .mr else .mt })

/-- R143: `request(op, build, total)`; `built` is the state with the builder's writes. -/
def request (op : Bool) (total : Nat) (built s : State) : State :=
  if requestRefused total s then refuse minusOne s else requestAccept op built

/-- R141, R203: what BEGIN and SBEGIN write. -/
def bind (role : Role) (dev ar : Byte) (target : Half) (s : State) : State :=
  { crWrite idleCmd
      { s with
        dev := dev
        target := target
        role := role
        sr := srWithPrescale s.sr s.params.prescale
        brr := s.params.bitrate
        pue := true
        ar := ar } with
    state := .idle, count := 0#16, ix := 0, next := 0#16, last := 0#16 }

/-- R148, R160: a command that holds has not executed: nothing changes and it stays presented. -/
def hold (s : State) : State := s

/-! ### Master transfers -/

/-- R172, R173: the address byte goes to DR, then DATA_CMD. -/
def sendAddress (s : State) : State := crWrite dataCmd { s with dr := s.addr }

/-- R175: the body of `mt_next()` after `advance()`. -/
def mtSend (s : State) : State :=
  if s.rem = 0#16 then stop .idle .writeCompleted s else crWrite dataCmd (loadByte s)

/-- R175: `mt_next()`. -/
def mtNext (s : State) : State := mtSend (advance s)

/-- R179, R180: the ACK or NACK decision of a master receiver, on `rem` as it is now. -/
def mrDecide (s : State) : State := crWrite (masterAck s.rem) s

/-! ### Slave transfers -/

/-- R205: `slave_load(b, s)`, here with the new state `e`. IX and VEC are left as they are. -/
def slaveLoad (b : Segment) (e : EngineState) (s : State) : State :=
  if b.buf = 0#16 then { s with next := 0#16, last := 0#16, count := 0#16, state := e }
  else { s with next := b.buf, last := b.buf + b.len, count := 0#16, state := e }

/-- R206, R210: the ACK or NACK decision of a slave receiver, on `rem` as it is now. -/
def srDecide (s : State) : State := crWrite (slaveAck s.rem) s

/-- R206: the reaction to an address match for writing. -/
def srAddressed (s : State) : State := srDecide (slaveLoad s.slvWr .sr s)

/-- R215: `slave_write_done()`. -/
def slaveWriteDone (s : State) : State :=
  let t := push .writeCompleted { crWrite releaseCmd { s with ar := 0#8 } with state := .idle }
  if t.target = 0#16 then t else { t with callbackDue := true }

/-- R219: the byte to transmit, or the filler 0xFF, which is not counted. -/
def stLoad (s : State) : State := if s.rem = 0#16 then { s with dr := 0xFF#8 } else loadByte s

/-- R219: `st_next()`; the ACK decision is on `rem` after the load. -/
def stNext (s : State) : State := crWrite (slaveAck (stLoad s).rem) (stLoad s)

/-- R216: the reaction to an address match for reading. -/
def stAddressed (s : State) : State := stNext (slaveLoad s.slvRd .st s)

/-- R220, R221: the end of a slave transmission. AR is unchanged and nothing is pushed. -/
def stDone (s : State) : State := { crWrite ackCmd s with state := .idle }

/-- R185: the default action. COUNT, the cursor and VEC keep their values and nothing is pushed. -/
def resetToIdle (s : State) : State := { crWrite releaseCmd s with state := .idle }

/-! ### The event step's entry and return (R257, R263) -/

/-- R170, R263: entering the event step: when enabled, the condition is read from SR once (`State.srValue`); nothing is saved and no mode
changes. None when the step is not enabled. The return is the end of the step: nothing is restored, and the control
write of the reaction has cleared INT (R263). -/
def enterEvent (s : State) : Option Instr := if s.eventEnabled then some (decodeStatus s.srValue) else none

end Sys2Proof.Machine
end

