-- ==== Sys2Proof/Machine/Commands.lean ====
section
/-! DEFINITION. The commands that bind, release, wait and poll: BEGIN, END, AWAIT, POLL
(42_host_commands.md R141, R142, R148, R149). -/

namespace Sys2Proof.Machine

/-- BEGIN (R141). A8[7] = 1 is illegal (R74). -/
def execBegin (a8 : Byte) (target : Half) (s : State) : Out :=
  if a8.msb then .next (refuse illegal s)
  else if s.role ≠ .none then .next (respond resultFalse s)
  else .next (respond resultTrue (bind .master (busAddress a8) 0x00#8 target s))

/-- END (R142). It holds only with a completion target and a transfer in flight; it releases, it never cancels. -/
def execEnd (s : State) : Out :=
  if s.role = .none then .next (respond resultFalse s)
  else if s.target ≠ 0#16 ∧ s.busy = true then .next (hold s)
  else .next (respond resultTrue { crWrite offCmd s with role := .none, target := 0#16, callbackDue := false })

/-- AWAIT (R148). `sleepMode` is carried and ignored (R270). -/
def execAwait (_sleepMode : Byte) (s : State) : Out :=
  if s.busy then .next (hold s) else .next (respond s.count s)

/-- POLL (R149). -/
def execPoll (s : State) : Out := .next (respond s.count s)

end Sys2Proof.Machine
end

