-- ==== Sys2Proof/Machine/CommonEvents.lean ====
section
/-! DEFINITION. The reactions to the common conditions and the unnamed codes (43_master_events.md R183 to R185). -/

namespace Sys2Proof.Machine

/-- BUS_ERROR (R183). -/
def execBusError (s : State) : Out := .next (failWithStop s)

/-- NO_INFO (R184): nothing at all; INT stays as it is, so a delivered NO_INFO is a livelock. -/
def execNoInfo (s : State) : Out := .next (s)

/-- UNMAPPED, code 0xD0 (R185). -/
def execUnmappedD0 (s : State) : Out := .next (resetToIdle s)

/-- UNMAPPED, code 0xD8 (R185). -/
def execUnmappedD8 (s : State) : Out := .next (resetToIdle s)

/-- UNMAPPED, code 0xE0 (R185). -/
def execUnmappedE0 (s : State) : Out := .next (resetToIdle s)

/-- UNMAPPED, code 0xE8 (R185). -/
def execUnmappedE8 (s : State) : Out := .next (resetToIdle s)

/-- UNMAPPED, code 0xF0 (R185). -/
def execUnmappedF0 (s : State) : Out := .next (resetToIdle s)

end Sys2Proof.Machine
end

