-- ==== Sys2Proof/Machine/MasterEvents.lean ====
section
/-! DEFINITION. The reactions to the master's conditions (43_master_events.md R172 to R182). -/

namespace Sys2Proof.Machine

/-- START (R172): send the address byte. -/
def execStart (s : State) : Out := .next (sendAddress s)

/-- REP_START (R173): the reaction of START. -/
def execRepStart (s : State) : Out := .next (sendAddress s)

/-- ARB_LOST (R174): release the bus with no STOP, abort to ERROR. -/
def execArbLost (s : State) : Out :=
  .next (push .error { crWrite releaseCmd s with state := .error, count := minusOne })

/-- MT_SLA_ACK (R175). -/
def execMtSlaAck (s : State) : Out := .next (mtNext s)

/-- MT_DATA_ACK (R176). -/
def execMtDataAck (s : State) : Out := .next (mtNext s)

/-- MT_DATA_NACK (R177): a normal end of the write, not an error. -/
def execMtDataNack (s : State) : Out := .next (stop .idle .writeCompleted s)

/-- MT_SLA_NACK (R178). -/
def execMtSlaNack (s : State) : Out := .next (failWithStop s)

/-- MR_SLA_ACK (R179): the first byte's ACK is decided before it is received. -/
def execMrSlaAck (s : State) : Out := .next (mrDecide s)

/-- MR_DATA_ACK (R180): the decision is on `rem` after the store. -/
def execMrDataAck (s : State) : Out := .next (mrDecide (storeByte s))

/-- MR_DATA_NACK (R181). -/
def execMrDataNack (s : State) : Out := .next (stop .idle .readCompleted (storeByte s))

/-- MR_SLA_NACK (R182). -/
def execMrSlaNack (s : State) : Out := .next (failWithStop s)

end Sys2Proof.Machine
end

