-- ==== Sys2Proof/Machine/Requests.lean ====
section
/-! DEFINITION. The requests: WREQ, WREQ1, WREQ2, RREQ (42_host_commands.md R143 to R147). -/

namespace Sys2Proof.Machine

/-- WREQ (R144). -/
def execWreq (buf : Ptr) (size : Half) (s : State) : Out :=
  .next (request false (payloadLength buf size) (buildRaw buf size s) s)

/-- WREQ1 (R145). -/
def execWreq1 (header : Byte) (buf : Ptr) (size : Half) (s : State) : Out :=
  .next (request false (1 + payloadLength buf size) (buildHeader1 header buf size s) s)

/-- WREQ2 (R146). -/
def execWreq2 (header : Half) (buf : Ptr) (size : Half) (s : State) : Out :=
  .next (request false (2 + payloadLength buf size) (buildHeader2 header buf size s) s)

/-- RREQ (R147). A null or an empty buffer is refused. -/
def execRreq (buf : Ptr) (size : Half) (s : State) : Out :=
  if buf = 0#16 ∨ size = 0#16 then .next (refuse minusOne s)
  else .next (request true size.toNat (buildRaw buf size s) s)

end Sys2Proof.Machine
end

