-- ==== Sys2Proof/Machine/SlaveCommands.lean ====
section
/-! DEFINITION. The slave's commands: SBEGIN, SETRB, SETWB, REARM (44_slave_role.md R201 to R204). -/

namespace Sys2Proof.Machine

/-- SBEGIN (R203). A8[7] = 1 is illegal (R74). -/
def execSbegin (a8 : Byte) (target : Half) (s : State) : Out :=
  if a8.msb then .next (refuse illegal s)
  else if s.role ≠ .none then .next (respond resultFalse s)
  else .next (respond resultTrue { bind .slave (busAddress a8) (busAddress a8) target s with callbackDue := false })

/-- SETRB (R201). -/
def execSetrb (buf : Ptr) (size : Half) (s : State) : Out :=
  if s.busy then .next (refuse minusOne s)
  else if 32767 < size.toNat then .next (refuse minusOne s)
  else .next (respond accepted { s with slvRd := ⟨buf, size⟩ })

/-- SETWB (R202). -/
def execSetwb (buf : Ptr) (size : Half) (s : State) : Out :=
  if s.busy then .next (refuse minusOne s)
  else if 32767 < size.toNat then .next (refuse minusOne s)
  else .next (respond accepted { s with slvWr := ⟨buf, size⟩ })

/-- REARM (R204). Refused or not, it clears CALLBACK_DUE (R253). It does not write CR. -/
def execRearm (s : State) : Out :=
  if s.role ≠ .slave then .next (refuse minusOne { s with callbackDue := false })
  else .next (respond accepted { s with callbackDue := false, ar := s.dev })

end Sys2Proof.Machine
end

