-- ==== Sys2Proof/Machine/SlaveReceive.lean ====
section
/-! DEFINITION. The reactions to the slave-receive conditions (44_slave_role.md R206 to R215). -/

namespace Sys2Proof.Machine

/-- SR_SLA_ACK (R206). -/
def execSrSlaAck (s : State) : Out := .next (srAddressed s)

/-- SR_ARB_LOST_SLA_ACK (R207): no error is signalled for the lost arbitration. -/
def execSrArbLostSlaAck (s : State) : Out := .next (srAddressed s)

/-- SR_GCALL_ACK (R208). -/
def execSrGcallAck (s : State) : Out := .next (srAddressed s)

/-- SR_ARB_LOST_GCALL_ACK (R209). -/
def execSrArbLostGcallAck (s : State) : Out := .next (srAddressed s)

/-- SR_DATA_ACK (R210): the decision is on `rem` after the store. -/
def execSrDataAck (s : State) : Out := .next (srDecide (storeByte s))

/-- SR_GCALL_DATA_ACK (R211). -/
def execSrGcallDataAck (s : State) : Out := .next (srDecide (storeByte s))

/-- SR_DATA_NACK (R212): the byte in DR is discarded and the write phase is over. -/
def execSrDataNack (s : State) : Out := .next (slaveWriteDone s)

/-- SR_GCALL_DATA_NACK (R213). -/
def execSrGcallDataNack (s : State) : Out := .next (slaveWriteDone s)

/-- SR_STOP (R214). -/
def execSrStop (s : State) : Out := .next (slaveWriteDone s)

end Sys2Proof.Machine
end

