-- ==== Sys2Proof/Machine/SlaveTransmit.lean ====
section
/-! DEFINITION. The reactions to the slave-transmit conditions (44_slave_role.md R216 to R221). -/

namespace Sys2Proof.Machine

/-- ST_SLA_ACK (R216). -/
def execStSlaAck (s : State) : Out := .next (stAddressed s)

/-- ST_ARB_LOST_SLA_ACK (R217). -/
def execStArbLostSlaAck (s : State) : Out := .next (stAddressed s)

/-- ST_DATA_ACK (R218). -/
def execStDataAck (s : State) : Out := .next (stNext s)

/-- ST_DATA_NACK (R220). -/
def execStDataNack (s : State) : Out := .next (stDone s)

/-- ST_LAST_DATA (R221). -/
def execStLastData (s : State) : Out := .next (stDone s)

end Sys2Proof.Machine
end

