-- ==== Sys2Proof/Machine/Dispatch.lean ====
section
/-! DEFINITION. exec: one arm per instruction, each a call of the instruction's own meaning. -/

namespace Sys2Proof.Machine

def exec (i : Instr) (s : State) : Host.Outcome State Fault Refusal :=
  match i with
  | .beginCmd a8 target => Sys2Proof.Machine.execBegin a8 target s
  | .sbegin a8 target => Sys2Proof.Machine.execSbegin a8 target s
  | .endCmd => Sys2Proof.Machine.execEnd s
  | .wreq buf size => Sys2Proof.Machine.execWreq buf size s
  | .wreq1 header buf size => Sys2Proof.Machine.execWreq1 header buf size s
  | .wreq2 header buf size => Sys2Proof.Machine.execWreq2 header buf size s
  | .rreq buf size => Sys2Proof.Machine.execRreq buf size s
  | .awaitCmd sleepMode => Sys2Proof.Machine.execAwait sleepMode s
  | .poll => Sys2Proof.Machine.execPoll s
  | .setrb buf size => Sys2Proof.Machine.execSetrb buf size s
  | .setwb buf size => Sys2Proof.Machine.execSetwb buf size s
  | .rearm => Sys2Proof.Machine.execRearm s
  | .busError => Sys2Proof.Machine.execBusError s
  | .start => Sys2Proof.Machine.execStart s
  | .repStart => Sys2Proof.Machine.execRepStart s
  | .mtSlaAck => Sys2Proof.Machine.execMtSlaAck s
  | .mtSlaNack => Sys2Proof.Machine.execMtSlaNack s
  | .mtDataAck => Sys2Proof.Machine.execMtDataAck s
  | .mtDataNack => Sys2Proof.Machine.execMtDataNack s
  | .arbLost => Sys2Proof.Machine.execArbLost s
  | .mrSlaAck => Sys2Proof.Machine.execMrSlaAck s
  | .mrSlaNack => Sys2Proof.Machine.execMrSlaNack s
  | .mrDataAck => Sys2Proof.Machine.execMrDataAck s
  | .mrDataNack => Sys2Proof.Machine.execMrDataNack s
  | .srSlaAck => Sys2Proof.Machine.execSrSlaAck s
  | .srArbLostSlaAck => Sys2Proof.Machine.execSrArbLostSlaAck s
  | .srGcallAck => Sys2Proof.Machine.execSrGcallAck s
  | .srArbLostGcallAck => Sys2Proof.Machine.execSrArbLostGcallAck s
  | .srDataAck => Sys2Proof.Machine.execSrDataAck s
  | .srDataNack => Sys2Proof.Machine.execSrDataNack s
  | .srGcallDataAck => Sys2Proof.Machine.execSrGcallDataAck s
  | .srGcallDataNack => Sys2Proof.Machine.execSrGcallDataNack s
  | .srStop => Sys2Proof.Machine.execSrStop s
  | .stSlaAck => Sys2Proof.Machine.execStSlaAck s
  | .stArbLostSlaAck => Sys2Proof.Machine.execStArbLostSlaAck s
  | .stDataAck => Sys2Proof.Machine.execStDataAck s
  | .stDataNack => Sys2Proof.Machine.execStDataNack s
  | .stLastData => Sys2Proof.Machine.execStLastData s
  | .unmappedD0 => Sys2Proof.Machine.execUnmappedD0 s
  | .unmappedD8 => Sys2Proof.Machine.execUnmappedD8 s
  | .unmappedE0 => Sys2Proof.Machine.execUnmappedE0 s
  | .unmappedE8 => Sys2Proof.Machine.execUnmappedE8 s
  | .unmappedF0 => Sys2Proof.Machine.execUnmappedF0 s
  | .noInfo => Sys2Proof.Machine.execNoInfo s

end Sys2Proof.Machine
end

