-- ==== Sys2Proof/Machine/Agents.lean ====
section
/-! DEFINITION. The turns of the agents (R3): what HOST, ENGINE-COMMAND, ENGINE-EVENT, BUS, EVENTQ and reset do in
one turn. An agent whose turn comes while it is not enabled does nothing (log entry 4). -/

namespace Sys2Proof.Machine

/-- Change the next state of an outcome. -/
def mapNext (f : State → State) (o : Out) : Out :=
  match o with
  | .next s => .next (f s)
  | .fault r => .fault r
  | .refused r => .refused r

/-! ### HOST -/

/-- R140: the HOST can act while no word of its own waits for its response (R160, R258). -/
def portFree (p : CommandPort) : Bool :=
  match p with
  | .presented _ => false
  | .idle | .answered _ => true

/-- R140: the HOST presents its next command word. -/
def hostPresent (w : CmdWord) (s : State) : State :=
  if portFree s.port then { s with port := .presented w } else s

/-- R63, R292, R296: a host store goes to the data space, under the header window too. While a word of the HOST waits for
its response the HOST waits too, and makes no store (R160, R258). -/
def hostStore (a : Ptr) (b : Byte) (s : State) : State := if portFree s.port then memWrite a b s else s

/-! ### The engine -/

/-- R140: decoding comes first; an illegal word is `refuse(-2)` (R74, R162). -/
def runCommand (w : CmdWord) (s : State) : Out :=
  match decodeCommand w with
  | .ok i => exec i s
  | .error _ => .next (refuse illegal s)

/-- R140: the command step. -/
def commandStep (s : State) : Out :=
  match s.port with
  | .presented w => runCommand w s
  | .idle | .answered _ => .next s

/-- R170: the event step. -/
def eventStep (s : State) : Out :=
  match enterEvent s with
  | some i => exec i s
  | none => .next s

/-! ### EVENTQ -/

/-- R222: a record whose dispatch calls `on_request`: a WRITE_COMPLETED addressed to the bound slave while its
call-back is due. DEDUCED (log entry 13). -/
def callsBack (r : EventRecord) (s : State) : Bool :=
  r.type == .writeCompleted && s.role == .slave && r.target == s.target && s.callbackDue

/-- R262: EVENTQ takes the oldest record, one at a time; R222: for a bound slave it calls
`on_request(SLV_WR.buf, value)`. While a call-back runs, that is until its REARM has executed, no record is taken
(log entry 13). -/
def dispatch (s : State) : State :=
  match s.onRequest, s.evq with
  | none, r :: rest =>
    { s with
      evq := rest
      onRequest := if callsBack r s then some ⟨s.slvWr.buf, r.value⟩ else none }
  | _, _ => s

/-- The two command ports exchanged: the call-back's command runs as any other and its response goes to the call-back
(log entry 14). -/
def swapPorts (s : State) : State := { s with port := s.callPort, callPort := s.port }

/-- R222, R140: the call-back presents a word and the engine executes it, in one step (log entry 14). -/
def callRun (w : CmdWord) (s : State) : Out := mapNext swapPorts (commandStep { swapPorts s with port := .presented w })

/-- R222: the call-back issues "host commands that are legal in IDLE": it issues none while a transfer is in flight, so none
of them holds and none ends a hold of the HOST's (R160). DEDUCED (log entry 13): an END that clears CALLBACK_DUE does not
stop an `on_request` that already runs. -/
def callCommand (w : CmdWord) (s : State) : Out :=
  if s.onRequest.isSome && !s.busy then callRun w s else .next s

/-- R222: the call-back fills the read buffer, or any byte of the data space. -/
def callStore (a : Ptr) (b : Byte) (s : State) : State := if s.onRequest.isSome then memWrite a b s else s

/-- The command word of REARM (R72, R204). -/
def rearmWord : CmdWord := 0x0C00000000000000#64

/-- R222: `on_request` returns and EVENTQ presents REARM, which the engine executes, in one step: DEDUCED (log entry 13).
After an END it is refused (R142 (e)). -/
def callReturn (s : State) : Out :=
  if s.onRequest.isSome then callRun rearmWord { s with onRequest := none } else .next s

/-! ### Reset -/

/-- R280, R282: every register, hidden state and bus controller register has its reset value; the data space is not
changed. The parameters are fixed (R285) and the other agents' turns go on (log entry 15). -/
def platformReset (s : State) : State :=
  { State.reset with mem := s.mem, params := s.params, script := s.script }

/-! ### One turn -/

/-- R60: one turn of one agent, atomic. -/
def takeTurn (t : Turn) (s : State) : Out :=
  match t with
  | .reset => .next (platformReset s)
  | .hostPresent w => .next (hostPresent w s)
  | .hostStore a b => .next (hostStore a b s)
  | .command => commandStep s
  | .event => eventStep s
  | .deliver code data => .next (deliver code data s)
  | .finish => .next (finish s)
  | .dispatch => .next (dispatch s)
  | .callCommand w => callCommand w s
  | .callStore a b => .next (callStore a b s)
  | .callReturn => callReturn s

/-- A code placed where the next step takes its instruction from (log entry 17): a command word on the command port
with the ENGINE-COMMAND turn next; a status byte in SR with INT, EN and IE set and the ENGINE-EVENT turn next. -/
def placeCode (c : Code) (s : State) : State :=
  match c with
  | .command w => { s with port := .presented w, script := .command :: s.script }
  | .status b => { s with sr := b, cr := s.cr ||| 0x85#8, script := .event :: s.script }

end Sys2Proof.Machine
end

