-- ==== Sys2Proof/Machine/Step.lean ====
section
/-! DEFINITION. The step: the next turn of the script, or no move at all when no turn is left. -/

namespace Sys2Proof.Machine

/-- R60, R258: the steps of all agents form one total order; the script in State is that order. With no turn left no
agent moves: the machine waits (log entry 5). -/
def step (s : State) : Host.Outcome State Fault Refusal :=
  match s.script with
  | [] => .next s
  | t :: rest => takeTurn t { s with script := rest }

/-- The state whose next step runs exactly the instruction with the given opcode-table bits (log entry 17). -/
def State.withFetchWord (s : State) (nbits w : Nat) : State := placeCode (codeOfTable nbits w) s

end Sys2Proof.Machine
end

