-- ==== Sys2Proof/Safety.lean ====
section
/-! DEFINITION. What the statements speak of: the invariants of the engine, the runs the bus controller contract allows
(R246), and runs of reactions. -/

namespace Sys2Proof.Machine

/-! ### The engine's own invariant, kept by every turn of every agent, contract or not -/

/-- A field holds 0 where the spec says a bit reads 0, and the registers of the binding agree with ROLE. -/
structure EngineInv (s : State) : Prop where
  /-- The data space has its canonical form. -/
  memory : Memory.wf s.mem = true
  /-- CR bits 3 and 1 stay 0 (R31, U14). -/
  crReserved : s.cr &&& 0x0A#8 = 0#8
  /-- SR bit 2 reads 0 (R32, U14). -/
  srReserved : s.sr &&& 0x04#8 = 0#8
  /-- DEV always has bit 0 = 0 (R13). -/
  devWrite : s.dev.getLsbD 0 = false
  /-- A master client is not an armed slave (R141, R241). -/
  masterDisarmed : s.role = .master → s.ar = 0#8
  /-- While a slave is bound AR holds its address or the disarmed value (R203, R204, R215). -/
  slaveAddress : s.role = .slave → s.ar = s.dev ∨ s.ar = 0#8
  /-- The interrupt is masked exactly while nothing is bound (R257). -/
  boundEnabled : s.role ≠ .none → s.en = true ∧ s.ie = true
  /-- The interrupt is masked exactly while nothing is bound (R257). -/
  unboundMasked : s.role = .none → s.en = false ∧ s.ie = false
  /-- END and reset leave no target and no call-back due (R142, R39). -/
  unboundReleased : s.role = .none → s.target = 0#16 ∧ s.callbackDue = false
  /-- A call-back is due only for a target (R215). -/
  callbackTarget : s.callbackDue = true → s.target ≠ 0#16
  /-- In a master transfer ADDR is the bound address with the operation's bit (R13, R143). -/
  writeAddress : s.state = .mt → s.addr = s.dev
  /-- In a master transfer ADDR is the bound address with the operation's bit (R13, R143). -/
  readAddress : s.state = .mr → s.addr = s.dev ||| 1#8
  /-- Every pushed record has a target, and an error record carries -1 (R260, R261). -/
  records : ∀ r ∈ s.evq, r.target ≠ 0#16 ∧ (r.type = .error → r.value = 0xFFFF#16)

/-! ### The bus controller contract -/

/-- The turn about to be taken respects R246: if it is a delivery that the BUS agent is able to make, the event is one of
the legal next events. -/
def ContractHolds (s : State) : Prop :=
  ∀ code data rest, s.script = .deliver code data :: rest → s.en = true → s.int = false → legalDelivery s code = true

/-- The conditions the contract can deliver: not REP_START, no general call, no combined arbitration-lost code, not
UNMAPPED, not NO_INFO (R247 (a)). -/
def deliverable (c : Condition) : Bool :=
  match c with
  | .repStart | .srGcallAck | .srGcallDataAck | .srGcallDataNack | .srArbLostSlaAck | .srArbLostGcallAck
  | .stArbLostSlaAck | .unmapped | .noInfo => false
  | .busError | .start | .mtSlaAck | .mtSlaNack | .mtDataAck | .mtDataNack | .arbLost
  | .mrSlaAck | .mrSlaNack | .mrDataAck | .mrDataNack
  | .srSlaAck | .srDataAck | .srDataNack | .srStop | .stSlaAck | .stDataAck | .stDataNack | .stLastData => true

/-- The address-match conditions the contract can deliver (R240). -/
def addressMatch (c : Condition) : Bool := c == .srSlaAck || c == .stSlaAck

/-- What holds between the engine and the BUS agent in runs that respect the contract. -/
structure ContractInv (s : State) : Prop where
  /-- The controller is off exactly while nothing is bound (R231, R257). -/
  offUnbound : s.busMode = .off ↔ s.role = .none
  /-- While the BUS agent is in a transfer the engine is BUSY. -/
  transferBusy : s.busMode ≠ .off → s.busMode ≠ .free → s.busy = true
  /-- In mode FREE no transfer has begun, but for an address match that a bound slave has not yet answered. -/
  freeEvent : s.busMode = .free → s.busLast = none ∨ (s.role = .slave ∧ ∃ c, s.busLast = some c ∧ addressMatch c = true)
  /-- A START that was asked for and not yet sent follows no event of its transfer (R246). -/
  startFresh : s.busMode = .mStart → s.int = false → s.busLast = none
  /-- A waiting event is one the contract can deliver (R247 (a)). -/
  waitingEvent : s.int = true → deliverable (decodeCondition s.sr) = true
  /-- A waiting event is the last event of the current transfer, unless END has switched the controller off since. -/
  waitingLast : s.int = true → s.busLast = none ∨ s.busLast = some (decodeCondition s.sr)
  /-- STATE = ERROR comes with COUNT = -1 (R23, R251). -/
  errorCount : s.state = .error → s.count = 0xFFFF#16
  /-- In ERROR only an address match can be waiting (R240). -/
  errorEvent : s.role ≠ .none → s.state = .error → s.int = true → addressMatch (decodeCondition s.sr) = true

/-- Where a master read stands while the BUS agent owes the next event. -/
def readWaiting (s : State) : Prop :=
  (s.busMode = .mStart ∧ 1 ≤ s.rem.toNat) ∨
  (s.busMode = .mAddr ∧ s.pending = some ⟨dataCmd, s.addr⟩ ∧ 1 ≤ s.rem.toNat) ∨
  (s.busMode = .mRx ∧ ∃ d, s.pending = some ⟨ackCmd, d⟩ ∧ 2 ≤ s.rem.toNat) ∨
  (s.busMode = .mRx ∧ ∃ d, s.pending = some ⟨nackCmd, d⟩ ∧ s.rem.toNat = 1)

/-- Where a master read stands while the engine owes the answer to an event. -/
def readAnswering (s : State) : Prop :=
  1 ≤ s.rem.toNat ∧ s.busLast = some (decodeCondition s.sr) ∧
    match decodeCondition s.sr with
    | .start | .mrSlaAck | .mrSlaNack | .mrDataNack | .arbLost | .busError => True
    | .mrDataAck => 2 ≤ s.rem.toNat
    | _ => False

/-- R247 (b), (c), as an invariant: in a master read there is always room for the byte that was announced, and in a slave
transmission ACK_CMD, "more bytes follow", is pending only while bytes are left. -/
structure RoomInv (s : State) : Prop where
  readWaits : s.role ≠ .none → s.state = .mr → s.int = false → readWaiting s
  readAnswers : s.role ≠ .none → s.state = .mr → s.int = true → readAnswering s
  transmitWaits : s.role ≠ .none → s.state = .st → s.int = false → s.busMode = .sTx →
    ∀ d, s.pending = some ⟨ackCmd, d⟩ → 1 ≤ s.rem.toNat
  transmitAnswers : s.role ≠ .none → s.state = .st → s.int = true → decodeCondition s.sr = .stDataAck →
    1 ≤ s.rem.toNat

/-- The states in which a transfer stands when the BUS agent owes an event of it, by the mode (R231). -/
def modeAgrees (mode : BusMode) (e : EngineState) : Prop :=
  match mode with
  | .off | .free => True
  | .mStart | .mAddr => e = .mt ∨ e = .mr
  | .mTx => e = .mt
  | .mRx => e = .mr
  | .sRx => e = .sr
  | .sTx => e = .st

/-- The states in which a transfer stands when an event of it waits for its reaction. -/
def eventAgrees (c : Condition) (e : EngineState) : Prop :=
  match c with
  | .start | .repStart | .arbLost => e = .mt ∨ e = .mr
  | .mtSlaAck | .mtSlaNack | .mtDataAck | .mtDataNack => e = .mt
  | .mrSlaAck | .mrSlaNack | .mrDataAck | .mrDataNack => e = .mr
  | .srDataAck | .srDataNack | .srGcallDataAck | .srGcallDataNack | .srStop => e = .sr
  | .stDataAck | .stDataNack | .stLastData => e = .st
  | .srSlaAck | .srArbLostSlaAck | .srGcallAck | .srArbLostGcallAck | .stSlaAck | .stArbLostSlaAck
  | .busError | .noInfo | .unmapped => True

/-- R293: "Software must wait (AWAIT, or POLL until STATE <= IDLE) before END whenever it bound with target 0." END keeps STATE
(R142), so an END that abandons a transfer shows as a step that unbinds and leaves STATE in flight. -/
def KeepsTransfers (s t : State) : Prop := s.role ≠ .none → t.role = .none → t.busy = false

/-- What holds besides in contract runs whose software keeps R293: STATE, the BUS agent's mode and a waiting event belong to
one transfer. -/
structure FlightInv (s : State) : Prop where
  /-- No transfer is left behind by END (R293). -/
  unboundIdle : s.role = .none → s.busy = false
  /-- Out of flight only an address match can be waiting (R240). -/
  idleEvent : s.busy = false → s.int = true → addressMatch (decodeCondition s.sr) = true
  /-- An event that waits from before an END waits out of flight. -/
  staleIdle : s.int = true → s.busLast = none → s.busy = false
  /-- STATE is the BUS agent's transfer (R231). -/
  mode : s.role ≠ .none → modeAgrees s.busMode s.state
  /-- The address byte being sent says the direction (R13, R172). -/
  direction : s.role ≠ .none → s.busMode = .mAddr → ∀ d, s.pending = some ⟨dataCmd, d⟩ →
    (d.getLsbD 0 = true ↔ s.state = .mr)
  /-- A waiting event belongs to the transfer in flight. -/
  event : s.role ≠ .none → s.int = true → eventAgrees (decodeCondition s.sr) s.state

/-- The states of the runs that start at reset, with any data space, any parameters and any script, and respect the
contract at every turn. -/
inductive ContractReachable : State → Prop where
  | reset (mem : Memory) (params : Params) (script : List Turn) (h : Memory.wf mem = true) :
      ContractReachable { State.reset with mem := mem, params := params, script := script }
  | step (s t : State) (h : ContractReachable s) (hc : ContractHolds s) (hs : Sys2Proof.Machine.step s = .next t) :
      ContractReachable t

/-- The same runs, of software that keeps R293 at every turn. -/
inductive DrainedReachable : State → Prop where
  | reset (mem : Memory) (params : Params) (script : List Turn) (h : Memory.wf mem = true) :
      DrainedReachable { State.reset with mem := mem, params := params, script := script }
  | step (s t : State) (h : DrainedReachable s) (hc : ContractHolds s) (hs : Sys2Proof.Machine.step s = .next t)
      (hk : KeepsTransfers s t) : DrainedReachable t

/-! ### Runs of instructions -/

/-- The instructions of a list one after another, as the engine executes them with nothing in between. -/
def runInstrs (l : List Instr) (s : State) : Out :=
  match l with
  | [] => .next s
  | i :: rest =>
    match exec i s with
    | .next t => runInstrs rest t
    | .fault r => .fault r
    | .refused r => .refused r

/-- R111: the total length a write request advertises; 0 for any other instruction. -/
def writeTotal (i : Instr) : Nat :=
  match i with
  | .wreq buf size => payloadLength buf size
  | .wreq1 _ buf size => 1 + payloadLength buf size
  | .wreq2 _ buf size => 2 + payloadLength buf size
  | _ => 0

/-- R110: the byte a write request sends at position `k`: its header bytes first, then its payload in address order. -/
def writeByte (i : Instr) (s : State) (k : Nat) : Byte :=
  match i with
  | .wreq buf _ => memRead (buf + BitVec.ofNat 16 k) s
  | .wreq1 header buf _ => if k = 0 then header else memRead (buf + BitVec.ofNat 16 (k - 1)) { s with hdr0 := header }
  | .wreq2 header buf _ =>
    if k = 0 then headerHigh header
    else if k = 1 then headerLow header
    else memRead (buf + BitVec.ofNat 16 (k - 2)) { s with hdr0 := headerHigh header, hdr1 := headerLow header }
  | _ => 0

/-- R111: the reactions to the bytes of an acknowledged master read, as the engine executes them with nothing in between:
each byte arrives in DR (R230), with MR_DATA_ACK for all but the last and MR_DATA_NACK for the last. -/
def receiveBytes (l : List Byte) (s : State) : Out :=
  match l with
  | [] => .next s
  | [d] => exec .mrDataNack { s with dr := d }
  | d :: e :: rest =>
    match exec .mrDataAck { s with dr := d } with
    | .next t => receiveBytes (e :: rest) t
    | .fault r => .fault r
    | .refused r => .refused r

/-- BEGIN or SBEGIN. -/
def isBind (i : Instr) : Bool :=
  match i with
  | .beginCmd _ _ | .sbegin _ _ => true
  | _ => false

/-- One of the four requests. -/
def isRequest (i : Instr) : Bool :=
  match i with
  | .wreq _ _ | .wreq1 _ _ _ | .wreq2 _ _ _ | .rreq _ _ => true
  | _ => false

/-- The reactions that store a received byte (R180, R181, R210, R211). -/
def storesByte (i : Instr) : Bool :=
  match i with
  | .mrDataAck | .mrDataNack | .srDataAck | .srGcallDataAck => true
  | _ => false

/-- One of the three write requests. -/
def isWriteRequest (i : Instr) : Bool :=
  match i with
  | .wreq _ _ | .wreq1 _ _ _ | .wreq2 _ _ _ => true
  | _ => false

end Sys2Proof.Machine
end

