-- ==== Sys2Proof/Certificates/Slice0/Obligations.lean ====
section
/-! DEFINITION. The statements about the machine. Each docstring names the rule it formalises. A result is stated as the
whole next state: every field the equation does not name is unchanged, so it is the instruction's frame as well. The
statements about frames say the same of many instructions at once, memory byte by byte.

`busMode` and `busLast` are the environment's own (R231, R246): the engine cannot read them, and how the model moves
them rests on log entries 9 and 12. The results below leave them open (`m`, `l`); they have a statement of their own. -/

open Sys2Proof Sys2Proof.Machine

/-! ### Reset -/

/-- R39: the reset value of every piece of state of the table, and that no event step is enabled. -/
def Obligations.ResetMatchesTheResetTable : Prop :=
  State.reset.state = .idle ∧ State.reset.role = .none ∧ State.reset.dev = 0x00#8 ∧ State.reset.addr = 0x00#8 ∧
  State.reset.count = 0#16 ∧ State.reset.next = 0x0000#16 ∧ State.reset.last = 0x0000#16 ∧ State.reset.ix = 0 ∧
  (∀ i, State.reset.vec.slot i = ⟨0#16, 0#16⟩) ∧ State.reset.hdr0 = 0x00#8 ∧ State.reset.hdr1 = 0x00#8 ∧
  State.reset.target = 0x0000#16 ∧ State.reset.slvWr = ⟨0#16, 0#16⟩ ∧ State.reset.slvRd = ⟨0#16, 0#16⟩ ∧
  State.reset.pue = false ∧ State.reset.cr = 0x00#8 ∧ State.reset.sr = 0xF8#8 ∧ State.reset.dr = 0xFF#8 ∧
  State.reset.ar = 0xFE#8 ∧ State.reset.brr = 0x00#8 ∧ State.reset.pending = none ∧ State.reset.evq = [] ∧
  State.reset.callbackDue = false ∧ State.reset.en = false ∧ State.reset.ie = false ∧ State.reset.eventEnabled = false

/-- R281: after reset nothing happens until the HOST presents a command, whatever the data space, the parameters and the
other agents' turns, and the first BEGIN or SBEGIN succeeds.
The model's choice: a turn that is not enabled is a stutter (log entry 4), the ports and the call-back at reset (log entries 6,
14 and 19). -/
def Obligations.AfterResetOnlyTheHostActs : Prop :=
  ∀ (mem : Memory) (params : Params) (rest : List Turn) (turn : Turn),
    (turn = .event ∨ turn = .command ∨ turn = .finish ∨ turn = .dispatch ∨ turn = .callReturn ∨
      (∃ code data, turn = .deliver code data) ∨ (∃ w, turn = .callCommand w) ∨ (∃ a b, turn = .callStore a b)) →
    step { State.reset with mem := mem, params := params, script := turn :: rest } =
        .next { State.reset with mem := mem, params := params, script := rest } ∧
      (∀ a8 target, a8.msb = false →
        ∃ t u, exec (.beginCmd a8 target) { State.reset with mem := mem, params := params, script := rest } = .next t ∧
          t.port = .answered 0x010001#24 ∧
          exec (.sbegin a8 target) { State.reset with mem := mem, params := params, script := rest } = .next u ∧
          u.port = .answered 0x010001#24)

/-- R280, R282: a reset turn, in the middle of a transfer too, gives every register of R39 its reset value, empties EVQ,
drops PENDING and leaves every byte of the data space; the parameters stay (R285).
The model's choice: the ports and the call-back are dropped and the remaining turns stay (log entry 15). -/
def Obligations.ResetTurnKeepsOnlyTheDataSpace : Prop :=
  ∀ (s : State) (rest : List Turn), s.script = .reset :: rest →
    step s = .next { State.reset with mem := s.mem, params := s.params, script := rest }

/-! ### The host commands -/

/-- R141: BEGIN. -/
def Obligations.BeginBindsAMasterOrIsRefused : Prop :=
  ∀ (a8 : Byte) (target : Half) (s : State),
    (a8.msb = true →
      exec (.beginCmd a8 target) s = .next { s with port := .answered (responseWord s.state 0xFFFE#16) }) ∧
    (a8.msb = false → s.role ≠ .none →
      exec (.beginCmd a8 target) s = .next { s with port := .answered (responseWord s.state 0#16) }) ∧
    (a8.msb = false → s.role = .none →
      ∃ m l, exec (.beginCmd a8 target) s = .next { s with
        dev := a8 <<< 1
        target := target
        role := .master
        sr := (s.sr &&& 0xFC#8) ||| s.params.prescale.zeroExtend 8
        brr := s.params.bitrate
        pue := true
        ar := 0x00#8
        cr := (s.cr &&& 0x80#8) ||| 0x45#8
        state := .idle
        count := 0#16
        ix := 0
        next := 0#16
        last := 0#16
        busMode := m
        busLast := l
        port := .answered (responseWord .idle 1#16) })

/-- R203: SBEGIN. -/
def Obligations.SbeginBindsAnArmedSlaveOrIsRefused : Prop :=
  ∀ (a8 : Byte) (target : Half) (s : State),
    (a8.msb = true →
      exec (.sbegin a8 target) s = .next { s with port := .answered (responseWord s.state 0xFFFE#16) }) ∧
    (a8.msb = false → s.role ≠ .none →
      exec (.sbegin a8 target) s = .next { s with port := .answered (responseWord s.state 0#16) }) ∧
    (a8.msb = false → s.role = .none →
      ∃ m l, exec (.sbegin a8 target) s = .next { s with
        dev := a8 <<< 1
        target := target
        role := .slave
        sr := (s.sr &&& 0xFC#8) ||| s.params.prescale.zeroExtend 8
        brr := s.params.bitrate
        pue := true
        ar := a8 <<< 1
        cr := (s.cr &&& 0x80#8) ||| 0x45#8
        state := .idle
        count := 0#16
        ix := 0
        next := 0#16
        last := 0#16
        callbackDue := false
        busMode := m
        busLast := l
        port := .answered (responseWord .idle 1#16) })

/-- R142: END: false when nothing is bound, a hold while a transfer with a completion target is in flight, else the
release. -/
def Obligations.EndDrainsThenReleases : Prop :=
  ∀ s : State,
    (s.role = .none → exec .endCmd s = .next { s with port := .answered (responseWord s.state 0#16) }) ∧
    (s.role ≠ .none → s.target ≠ 0#16 → s.busy = true → exec .endCmd s = .next s) ∧
    (s.role ≠ .none → (s.target = 0#16 ∨ s.busy = false) →
      ∃ m l, exec .endCmd s = .next { s with
        cr := s.cr &&& 0x80#8
        pending := some ⟨0x00#8, s.dr⟩
        role := .none
        target := 0#16
        callbackDue := false
        busMode := m
        busLast := l
        port := .answered (responseWord s.state 1#16) })

/-- R148, R149: AWAIT holds while STATE > IDLE, changing nothing, and then answers COUNT whatever the sleep mode; POLL
answers STATE and COUNT at once, in flight or not, and changes nothing else. -/
def Obligations.AwaitHoldsAndPollAnswersAtOnce : Prop :=
  ∀ (sleepMode : Byte) (s : State),
    (s.busy = true →
      exec (.awaitCmd sleepMode) s = .next s ∧
      exec .poll s = .next { s with port := .answered (responseWord s.state s.count) }) ∧
    (s.busy = false →
      exec (.awaitCmd sleepMode) s = .next { s with port := .answered (responseWord s.state s.count) } ∧
      exec .poll s = .next { s with port := .answered (responseWord s.state s.count) })

/-- R143, R144, R101: an accepted WREQ. -/
def Obligations.WreqAcceptedStartsAMasterTransmit : Prop :=
  ∀ (buf : Ptr) (size : Half) (s : State),
    s.role = .master → s.state = .idle → (if buf = 0#16 then 0 else size.toNat) ≤ 32767 →
      ∃ m l, exec (.wreq buf size) s = .next { s with
        vec := { s.vec with slot0 := ⟨buf, size⟩, slot1 := ⟨0#16, 0#16⟩ }
        ix := 0
        next := buf
        last := if buf = 0#16 then 0#16 else buf + size
        count := 0#16
        addr := s.dev
        state := .mt
        cr := 0x65#8
        pending := some ⟨0xE5#8, s.dr⟩
        busMode := m
        busLast := l
        port := .answered (responseWord .mt 0#16) }

/-- R143, R145, R102: an accepted WREQ1. -/
def Obligations.Wreq1AcceptedPutsTheHeaderFirst : Prop :=
  ∀ (header : Byte) (buf : Ptr) (size : Half) (s : State),
    s.role = .master → s.state = .idle →
    1 + (if buf = 0#16 then 0 else size.toNat) ≤ 32767 →
      ∃ m l, exec (.wreq1 header buf size) s = .next { s with
        hdr0 := header
        vec := { s.vec with slot0 := ⟨s.params.hdrAddr, 1#16⟩, slot1 := ⟨buf, size⟩, slot2 := ⟨0#16, 0#16⟩ }
        ix := 0
        next := s.params.hdrAddr
        last := s.params.hdrAddr + 1#16
        count := 0#16
        addr := s.dev
        state := .mt
        cr := 0x65#8
        pending := some ⟨0xE5#8, s.dr⟩
        busMode := m
        busLast := l
        port := .answered (responseWord .mt 0#16) }

/-- R143, R146, R103: an accepted WREQ2: the more significant header byte is HDR[0]. -/
def Obligations.Wreq2AcceptedSplitsTheHeader : Prop :=
  ∀ (header : Half) (buf : Ptr) (size : Half) (s : State),
    s.role = .master → s.state = .idle →
    2 + (if buf = 0#16 then 0 else size.toNat) ≤ 32767 →
      ∃ m l, exec (.wreq2 header buf size) s = .next { s with
        hdr0 := header.extractLsb' 8 8
        hdr1 := header.extractLsb' 0 8
        vec := { s.vec with slot0 := ⟨s.params.hdrAddr, 2#16⟩, slot1 := ⟨buf, size⟩, slot2 := ⟨0#16, 0#16⟩ }
        ix := 0
        next := s.params.hdrAddr
        last := s.params.hdrAddr + 2#16
        count := 0#16
        addr := s.dev
        state := .mt
        cr := 0x65#8
        pending := some ⟨0xE5#8, s.dr⟩
        busMode := m
        busLast := l
        port := .answered (responseWord .mt 0#16) }

/-- R147, R143, R107: RREQ: a null or empty buffer is refused; an accepted one starts a master receive. -/
def Obligations.RreqRefusesEmptyElseStartsAMasterReceive : Prop :=
  ∀ (buf : Ptr) (size : Half) (s : State),
    (buf = 0#16 ∨ size = 0#16 →
      exec (.rreq buf size) s = .next { s with port := .answered (responseWord s.state 0xFFFF#16) }) ∧
    (buf ≠ 0#16 → size ≠ 0#16 → s.role = .master → s.state = .idle → size.toNat ≤ 32767 →
      ∃ m l, exec (.rreq buf size) s = .next { s with
        vec := { s.vec with slot0 := ⟨buf, size⟩, slot1 := ⟨0#16, 0#16⟩ }
        ix := 0
        next := buf
        last := buf + size
        count := 0#16
        addr := s.dev ||| 1#8
        state := .mr
        cr := 0x65#8
        pending := some ⟨0xE5#8, s.dr⟩
        busMode := m
        busLast := l
        port := .answered (responseWord .mr 0#16) })

/-- R143, R253: a request that is not bound as a master, or not in IDLE, or longer than 32767 bytes is refused with -1 and
no change of any kind. -/
def Obligations.RequestsAreRefusedWithoutAnyChange : Prop :=
  ∀ (s : State) (buf : Ptr) (size h16 : Half) (h8 : Byte),
    ((s.role ≠ .master ∨ s.state ≠ .idle ∨ 32767 < (if buf = 0#16 then 0 else size.toNat)) →
      exec (.wreq buf size) s = .next { s with port := .answered (responseWord s.state 0xFFFF#16) }) ∧
    ((s.role ≠ .master ∨ s.state ≠ .idle ∨ 32767 < 1 + (if buf = 0#16 then 0 else size.toNat)) →
      exec (.wreq1 h8 buf size) s = .next { s with port := .answered (responseWord s.state 0xFFFF#16) }) ∧
    ((s.role ≠ .master ∨ s.state ≠ .idle ∨ 32767 < 2 + (if buf = 0#16 then 0 else size.toNat)) →
      exec (.wreq2 h16 buf size) s = .next { s with port := .answered (responseWord s.state 0xFFFF#16) }) ∧
    ((s.role ≠ .master ∨ s.state ≠ .idle ∨ 32767 < size.toNat) →
      exec (.rreq buf size) s = .next { s with port := .answered (responseWord s.state 0xFFFF#16) })

/-- R201, R202: SETRB and SETWB: refused in flight and above 32767 bytes, else the buffer is registered. -/
def Obligations.SlaveBuffersAreRegisteredWhenNotInFlight : Prop :=
  ∀ (buf : Ptr) (size : Half) (s : State),
    (s.busy = true ∨ 32767 < size.toNat →
      exec (.setrb buf size) s = .next { s with port := .answered (responseWord s.state 0xFFFF#16) } ∧
      exec (.setwb buf size) s = .next { s with port := .answered (responseWord s.state 0xFFFF#16) }) ∧
    (s.busy = false → size.toNat ≤ 32767 →
      exec (.setrb buf size) s =
        .next { s with slvRd := ⟨buf, size⟩, port := .answered (responseWord s.state 0#16) } ∧
      exec (.setwb buf size) s =
        .next { s with slvWr := ⟨buf, size⟩, port := .answered (responseWord s.state 0#16) })

/-- R204: REARM clears CALLBACK_DUE, refused or not; for a bound slave it writes AR. -/
def Obligations.RearmArmsABoundSlave : Prop :=
  ∀ s : State,
    (s.role ≠ .slave →
      exec .rearm s =
        .next { s with callbackDue := false, port := .answered (responseWord s.state 0xFFFF#16) }) ∧
    (s.role = .slave →
      exec .rearm s =
        .next { s with callbackDue := false, ar := s.dev, port := .answered (responseWord s.state 0#16) })

/-- R74, R162: an illegal command word, in every state, is answered -2 with ST = STATE and changes nothing else. -/
def Obligations.IllegalWordIsAnsweredMinusTwo : Prop :=
  ∀ (s : State) (w : CmdWord) (rest : List Turn), s.script = .command :: rest → s.port = .presented w →
    ((w >>> 56).toNat = 0 ∨ 0x0C < (w >>> 56).toNat ∨
      (((w >>> 56).toNat = 1 ∨ (w >>> 56).toNat = 2) ∧ w.getLsbD 55 = true)) →
    step s = .next { s with script := rest, port := .answered (responseWord s.state 0xFFFE#16) }

/-! ### The reactions of a master -/

/-- R172, R173: START and REP_START send the address byte. -/
def Obligations.StartSendsTheAddressByte : Prop :=
  ∀ (s : State) (i : Instr), i = .start ∨ i = .repStart →
    ∃ m l, exec i s = .next { s with
      dr := s.addr
      cr := 0x05#8
      pending := some ⟨0x85#8, s.addr⟩
      busMode := m
      busLast := l }

/-- R174, R127: arbitration loss, in any state, aborts to ERROR with -1 and releases the bus with no STOP: the command
written is 0xC5, whose STO bit is 0. -/
def Obligations.ArbitrationLossAbortsWithoutStop : Prop :=
  ∀ s : State,
    (∃ m l, exec .arbLost s = .next { s with
      cr := 0x45#8
      pending := some ⟨0xC5#8, s.dr⟩
      state := .error
      count := 0xFFFF#16
      evq := if s.target = 0#16 then s.evq else s.evq ++ [⟨.error, s.target, 0xFFFF#16⟩]
      busMode := m
      busLast := l }) ∧
    (0xC5#8).getLsbD 4 = false

/-- R175, R176: an address or data ACK of a master transmitter: after the sequencer has moved over exhausted segments,
the next byte is sent, or with none left the transfer stops. -/
def Obligations.TransmitAckSendsTheNextByteOrStops : Prop :=
  ∀ (s : State) (i : Instr), i = .mtSlaAck ∨ i = .mtDataAck →
    ((advance s).rem ≠ 0#16 →
      ∃ m l, exec i s = .next { advance s with
        dr := memRead (advance s).next s
        next := (advance s).next + 1#16
        count := s.count + 1#16
        cr := 0x05#8
        pending := some ⟨0x85#8, memRead (advance s).next s⟩
        busMode := m
        busLast := l }) ∧
    ((advance s).rem = 0#16 →
      ∃ m l, exec i s = .next { advance s with
        cr := 0x55#8
        pending := some ⟨0xD5#8, s.dr⟩
        state := .idle
        evq := if s.target = 0#16 then s.evq else s.evq ++ [⟨.writeCompleted, s.target, s.count⟩]
        busMode := m
        busLast := l })

/-- R177, R178, R182, R183: a data NACK is a normal end of the write with the count so far; an address NACK in either
direction and a bus error end in ERROR with -1 and an error event. All four write STOP_CMD. -/
def Obligations.DataNackIsANormalEndAddressNackAndBusErrorFail : Prop :=
  ∀ s : State,
    (∃ m l, exec .mtDataNack s = .next { s with
      cr := 0x55#8
      pending := some ⟨0xD5#8, s.dr⟩
      state := .idle
      evq := if s.target = 0#16 then s.evq else s.evq ++ [⟨.writeCompleted, s.target, s.count⟩]
      busMode := m
      busLast := l }) ∧
    ∀ i, i = .mtSlaNack ∨ i = .mrSlaNack ∨ i = .busError →
      ∃ m l, exec i s = .next { s with
        count := 0xFFFF#16
        cr := 0x55#8
        pending := some ⟨0xD5#8, s.dr⟩
        state := .error
        evq := if s.target = 0#16 then s.evq else s.evq ++ [⟨.error, s.target, 0xFFFF#16⟩]
        busMode := m
        busLast := l }

/-- R179: at the address ACK of a read the engine announces ACK when two bytes or more fit, else NACK, so a 1-byte read
NACKs its only byte. -/
def Obligations.ReadAddressAckAnnouncesTheFirstByte : Prop :=
  ∀ s : State,
    (2 ≤ (s.last - s.next).toNat →
      ∃ m l, exec .mrSlaAck s = .next { s with
        cr := 0x45#8
        pending := some ⟨0xC5#8, s.dr⟩
        busMode := m
        busLast := l }) ∧
    ((s.last - s.next).toNat < 2 →
      ∃ m l, exec .mrSlaAck s = .next { s with
        cr := 0x05#8
        pending := some ⟨0x85#8, s.dr⟩
        busMode := m
        busLast := l })

/-- R180: a received and ACKed byte is stored at NEXT while there is room, and the next byte is announced by the room
left after the store: three bytes or more before the store mean ACK. -/
def Obligations.ReadDataAckStoresAndAnnounces : Prop :=
  ∀ s : State,
    (3 ≤ (s.last - s.next).toNat →
      ∃ m l, exec .mrDataAck s = .next { s with
        mem := Memory.write s.mem s.next.toNat s.dr
        next := s.next + 1#16
        count := s.count + 1#16
        cr := 0x45#8
        pending := some ⟨0xC5#8, s.dr⟩
        busMode := m
        busLast := l }) ∧
    ((s.last - s.next).toNat = 1 ∨ (s.last - s.next).toNat = 2 →
      ∃ m l, exec .mrDataAck s = .next { s with
        mem := Memory.write s.mem s.next.toNat s.dr
        next := s.next + 1#16
        count := s.count + 1#16
        cr := 0x05#8
        pending := some ⟨0x85#8, s.dr⟩
        busMode := m
        busLast := l }) ∧
    ((s.last - s.next).toNat = 0 →
      ∃ m l, exec .mrDataAck s = .next { s with
        cr := 0x05#8
        pending := some ⟨0x85#8, s.dr⟩
        busMode := m
        busLast := l })

/-- R181: the last byte of a read is stored while there is room, and the transfer stops with READ_COMPLETED carrying the
final count. -/
def Obligations.ReadDataNackStoresAndStops : Prop :=
  ∀ s : State,
    (s.next ≠ s.last →
      ∃ m l, exec .mrDataNack s = .next { s with
        mem := Memory.write s.mem s.next.toNat s.dr
        next := s.next + 1#16
        count := s.count + 1#16
        cr := 0x55#8
        pending := some ⟨0xD5#8, s.dr⟩
        state := .idle
        evq := if s.target = 0#16 then s.evq else s.evq ++ [⟨.readCompleted, s.target, s.count + 1#16⟩]
        busMode := m
        busLast := l }) ∧
    (s.next = s.last →
      ∃ m l, exec .mrDataNack s = .next { s with
        cr := 0x55#8
        pending := some ⟨0xD5#8, s.dr⟩
        state := .idle
        evq := if s.target = 0#16 then s.evq else s.evq ++ [⟨.readCompleted, s.target, s.count⟩]
        busMode := m
        busLast := l })

/-- R184, R185: NO_INFO changes nothing, INT included; each of the five unnamed codes releases the bus and sets STATE to
IDLE, keeping COUNT, the cursor and VEC and pushing nothing. -/
def Obligations.NoInfoDoesNothingAndUnmappedResetsToIdle : Prop :=
  ∀ s : State,
    exec .noInfo s = .next s ∧
    ∀ i, i = .unmappedD0 ∨ i = .unmappedD8 ∨ i = .unmappedE0 ∨ i = .unmappedE8 ∨ i = .unmappedF0 →
      ∃ m l, exec i s = .next { s with
        cr := 0x45#8
        pending := some ⟨0xC5#8, s.dr⟩
        state := .idle
        busMode := m
        busLast := l }

/-! ### The reactions of a slave -/

/-- R206 to R209 (with R205): every slave-receive address match points the cursor at SLV_WR and announces ACK when there
is room for a byte. A null buffer has no room whatever its length. -/
def Obligations.SlaveReceiveMatchLoadsTheWriteBuffer : Prop :=
  ∀ (s : State) (i : Instr),
    i = .srSlaAck ∨ i = .srArbLostSlaAck ∨ i = .srGcallAck ∨ i = .srArbLostGcallAck →
    (s.slvWr.buf ≠ 0#16 → s.slvWr.len ≠ 0#16 →
      ∃ m l, exec i s = .next { s with
        next := s.slvWr.buf
        last := s.slvWr.buf + s.slvWr.len
        count := 0#16
        state := .sr
        cr := 0x45#8
        pending := some ⟨0xC5#8, s.dr⟩
        busMode := m
        busLast := l }) ∧
    (s.slvWr.buf = 0#16 ∨ s.slvWr.len = 0#16 →
      ∃ m l, exec i s = .next { s with
        next := s.slvWr.buf
        last := s.slvWr.buf
        count := 0#16
        state := .sr
        cr := 0x05#8
        pending := some ⟨0x85#8, s.dr⟩
        busMode := m
        busLast := l })

/-- R210, R211: a slave receiver stores the byte while there is room and announces ACK when room is left after it. -/
def Obligations.SlaveDataAckStoresAndAnnounces : Prop :=
  ∀ (s : State) (i : Instr), i = .srDataAck ∨ i = .srGcallDataAck →
    (2 ≤ (s.last - s.next).toNat →
      ∃ m l, exec i s = .next { s with
        mem := Memory.write s.mem s.next.toNat s.dr
        next := s.next + 1#16
        count := s.count + 1#16
        cr := 0x45#8
        pending := some ⟨0xC5#8, s.dr⟩
        busMode := m
        busLast := l }) ∧
    ((s.last - s.next).toNat = 1 →
      ∃ m l, exec i s = .next { s with
        mem := Memory.write s.mem s.next.toNat s.dr
        next := s.next + 1#16
        count := s.count + 1#16
        cr := 0x05#8
        pending := some ⟨0x85#8, s.dr⟩
        busMode := m
        busLast := l }) ∧
    ((s.last - s.next).toNat = 0 →
      ∃ m l, exec i s = .next { s with
        cr := 0x05#8
        pending := some ⟨0x85#8, s.dr⟩
        busMode := m
        busLast := l })

/-- R212 to R215: the end of a slave's write phase: the byte is discarded, AR is disarmed, the event is pushed and the
call-back becomes due, the last two only with a target. -/
def Obligations.SlaveWritePhaseEndsDisarmed : Prop :=
  ∀ (s : State) (i : Instr), i = .srDataNack ∨ i = .srGcallDataNack ∨ i = .srStop →
    ∃ m l, exec i s = .next { s with
      ar := 0x00#8
      cr := 0x45#8
      pending := some ⟨0xC5#8, s.dr⟩
      state := .idle
      evq := if s.target = 0#16 then s.evq else s.evq ++ [⟨.writeCompleted, s.target, s.count⟩]
      callbackDue := if s.target = 0#16 then s.callbackDue else true
      busMode := m
      busLast := l }

/-- R216, R217 (with R205, R219): every slave-transmit address match loads the first byte of SLV_RD, or the filler 0xFF
uncounted when there is none. -/
def Obligations.SlaveTransmitMatchLoadsTheReadBuffer : Prop :=
  ∀ (s : State) (i : Instr), i = .stSlaAck ∨ i = .stArbLostSlaAck →
    (s.slvRd.buf ≠ 0#16 → 2 ≤ s.slvRd.len.toNat →
      ∃ m l, exec i s = .next { s with
        dr := memRead s.slvRd.buf s
        next := s.slvRd.buf + 1#16
        last := s.slvRd.buf + s.slvRd.len
        count := 1#16
        state := .st
        cr := 0x45#8
        pending := some ⟨0xC5#8, memRead s.slvRd.buf s⟩
        busMode := m
        busLast := l }) ∧
    (s.slvRd.buf ≠ 0#16 → s.slvRd.len = 1#16 →
      ∃ m l, exec i s = .next { s with
        dr := memRead s.slvRd.buf s
        next := s.slvRd.buf + 1#16
        last := s.slvRd.buf + 1#16
        count := 1#16
        state := .st
        cr := 0x05#8
        pending := some ⟨0x85#8, memRead s.slvRd.buf s⟩
        busMode := m
        busLast := l }) ∧
    (s.slvRd.buf = 0#16 ∨ s.slvRd.len = 0#16 →
      ∃ m l, exec i s = .next { s with
        dr := 0xFF#8
        next := s.slvRd.buf
        last := s.slvRd.buf
        count := 0#16
        state := .st
        cr := 0x05#8
        pending := some ⟨0x85#8, 0xFF#8⟩
        busMode := m
        busLast := l })

/-- R218 (with R219): the master wants another byte: the next one is loaded, ACK meaning that more remain; with none left
the filler is sent uncounted. -/
def Obligations.SlaveTransmitAckLoadsTheNextByte : Prop :=
  ∀ s : State,
    (2 ≤ (s.last - s.next).toNat →
      ∃ m l, exec .stDataAck s = .next { s with
        dr := memRead s.next s
        next := s.next + 1#16
        count := s.count + 1#16
        cr := 0x45#8
        pending := some ⟨0xC5#8, memRead s.next s⟩
        busMode := m
        busLast := l }) ∧
    ((s.last - s.next).toNat = 1 →
      ∃ m l, exec .stDataAck s = .next { s with
        dr := memRead s.next s
        next := s.next + 1#16
        count := s.count + 1#16
        cr := 0x05#8
        pending := some ⟨0x85#8, memRead s.next s⟩
        busMode := m
        busLast := l }) ∧
    ((s.last - s.next).toNat = 0 →
      ∃ m l, exec .stDataAck s = .next { s with
        dr := 0xFF#8
        cr := 0x05#8
        pending := some ⟨0x85#8, 0xFF#8⟩
        busMode := m
        busLast := l })

/-- R220, R221: the end of a slave transmission: back to IDLE, still armed, no event. -/
def Obligations.SlaveTransmitEndsArmedWithoutEvent : Prop :=
  ∀ (s : State) (i : Instr), i = .stDataNack ∨ i = .stLastData →
    ∃ m l, exec i s = .next { s with
      cr := 0x45#8
      pending := some ⟨0xC5#8, s.dr⟩
      state := .idle
      busMode := m
      busLast := l }

/-! ### Shared operations -/

/-- R31: CRwrite, bit by bit, and what it hands to the BUS agent. -/
def Obligations.ControlWriteFollowsTheBitRules : Prop :=
  ∀ (v : Byte) (s : State),
    (crWrite v s).int = (s.int && !v.getLsbD 7) ∧ (crWrite v s).ea = v.getLsbD 6 ∧ (crWrite v s).sta = v.getLsbD 5 ∧
    (crWrite v s).sto = v.getLsbD 4 ∧ (crWrite v s).cr.getLsbD 3 = false ∧ (crWrite v s).en = v.getLsbD 2 ∧
    (crWrite v s).cr.getLsbD 1 = false ∧ (crWrite v s).ie = v.getLsbD 0 ∧
    ((v.getLsbD 7 = true ∨ v.getLsbD 5 = true ∨ v = 0x00#8) → (crWrite v s).pending = some ⟨v, s.dr⟩) ∧
    (crWrite 0x45#8 s).pending = s.pending

/-- R106, R104: `advance()` ends with a byte to move or at a sentinel with nothing left; it never moves IX back and it changes
IX, NEXT and LAST only. With bytes left, or at a sentinel, it does not move; from an exhausted segment it lands on the
first later slot that is a sentinel or has a nonzero length, every slot between being an empty segment, with the cursor
at that slot's start and end, or 0 and 0 at a sentinel. -/
def Obligations.AdvanceFindsAByteOrTheSentinel : Prop :=
  ∀ s : State,
    ((advance s).rem ≠ 0#16 ∨ ((advance s).rem = 0#16 ∧ atSentinel s.vec (advance s).ix = true)) ∧
    s.ix ≤ (advance s).ix ∧
    (s.rem ≠ 0#16 ∨ atSentinel s.vec s.ix = true → advance s = s) ∧
    (s.rem = 0#16 → atSentinel s.vec s.ix = false →
      s.ix < (advance s).ix ∧
      (∀ k : Fin 5, s.ix < k → k < (advance s).ix → atSentinel s.vec k = false ∧ (s.vec.slot k).len = 0#16) ∧
      (atSentinel s.vec (advance s).ix = true → (advance s).next = 0#16 ∧ (advance s).last = 0#16) ∧
      (atSentinel s.vec (advance s).ix = false →
        (s.vec.slot (advance s).ix).len ≠ 0#16 ∧ (advance s).next = (s.vec.slot (advance s).ix).buf ∧
        (advance s).last = (s.vec.slot (advance s).ix).buf + (s.vec.slot (advance s).ix).len)) ∧
    advance s = { s with ix := (advance s).ix, next := (advance s).next, last := (advance s).last }

/-- R108: the total lengths of the four builds, in unbounded integers. -/
def Obligations.BuiltDescriptorsHaveTheAdvertisedTotal : Prop :=
  ∀ (buf : Ptr) (size h16 : Half) (h8 : Byte) (s : State),
    (buildRaw buf size s).vec.total = (if buf = 0#16 then 0 else size.toNat) ∧
    (buildHeader1 h8 buf size s).vec.total = 1 + (if buf = 0#16 then 0 else size.toNat) ∧
    (buildHeader2 h16 buf size s).vec.total = 2 + (if buf = 0#16 then 0 else size.toNat)

/-- R52 to R54: the data space. An engine read at HDR_ADDR or HDR_ADDR + 1 gives HDR[0] or HDR[1]; any other gives the
data-space byte; a write changes the data-space byte at its address, under the window too, and no other, never HDR; and
every store keeps the canonical form. -/
def Obligations.DataSpaceReadsWritesAndTheHeaderWindow : Prop :=
  ∀ (s : State) (a b : Ptr) (v : Byte),
    (a = s.params.hdrAddr → memRead a s = s.hdr0) ∧
    (a ≠ s.params.hdrAddr → a = s.params.hdrAddr + 1#16 → memRead a s = s.hdr1) ∧
    (a ≠ s.params.hdrAddr → a ≠ s.params.hdrAddr + 1#16 → memRead a s = s.dataByte a) ∧
    (memWrite a v s).dataByte a = v ∧ (b ≠ a → (memWrite a v s).dataByte b = s.dataByte b) ∧
    (memWrite a v s).hdr0 = s.hdr0 ∧ (memWrite a v s).hdr1 = s.hdr1 ∧
    (Memory.wf s.mem = true → Memory.wf (memWrite a v s).mem = true)

/-- R11, R23, R76, R87, R88: the numeric forms: STATE, BUSY, the response word and the event record. -/
def Obligations.EncodingsOfStateResponseAndEvent : Prop :=
  ∀ (e : EngineState) (r : Half) (target : Half) (t : EventType),
    (e.code = 0#3 ↔ e = .error) ∧ (e.code = 1#3 ↔ e = .idle) ∧ (e.code = 2#3 ↔ e = .mt) ∧ (e.code = 3#3 ↔ e = .mr) ∧
    (e.code = 4#3 ↔ e = .st) ∧ (e.code = 5#3 ↔ e = .sr) ∧
    (e.inFlight = true ↔ e = .mt ∨ e = .mr ∨ e = .st ∨ e = .sr) ∧
    (responseWord e r).toNat = e.code.toNat * 65536 + r.toNat ∧
    (EventRecord.word ⟨t, target, r⟩).toNat = t.code.toNat * 4294967296 + target.toNat * 65536 + r.toNat ∧
    (t.code = 1#8 ↔ t = .error) ∧ (t.code = 2#8 ↔ t = .writeCompleted) ∧ (t.code = 3#8 ↔ t = .readCompleted)

/-! ### Decoding -/

/-- R71 to R75, R121: decoding an encoded well-formed instruction gives it back, with every operand at every value. -/
def Obligations.DecodeReadsBackEveryEncodedInstruction : Prop :=
  ∀ i : Instr, i.wellFormed = true → decode (encode i) = .ok i

/-- R75, R121: a code that decodes to an instruction has the width of that instruction's row of the opcode table and meets
the row's match under its mask, and the instruction is well formed; and no other row is met: an instruction whose row
the code also meets has the same row. -/
def Obligations.DecodedCodesMatchTheirTableRow : Prop :=
  ∀ (c : Code) (i : Instr), decode c = .ok i →
    i.wellFormed = true ∧ c.nbits = i.row.nbits ∧ c.bits &&& i.row.mask = i.row.matchBits ∧
    ∀ j : Instr, c.nbits = j.row.nbits → c.bits &&& j.row.mask = j.row.matchBits → j.row = i.row

/-- R74: the illegal command words are exactly OPC 0x00 and 0x0D to 0xFF, and BEGIN or SBEGIN with A8[7] = 1. -/
def Obligations.IllegalCommandWordsAreExactlyThese : Prop :=
  ∀ w : CmdWord,
    (∃ r, decodeCommand w = .error r) ↔
      ((w >>> 56).toNat = 0 ∨ 0x0D ≤ (w >>> 56).toNat ∨
        (((w >>> 56).toNat = 1 ∨ (w >>> 56).toNat = 2) ∧ w.getLsbD 55 = true))

/-- R75: the fields a command does not use have no effect on what it decodes to. -/
def Obligations.UnusedCommandFieldsAreIgnored : Prop :=
  ∀ (op a a' : Byte) (h h' : Half) (b b' : Ptr) (z z' : Half),
    ((op = 1#8 ∨ op = 2#8) → decodeCommand (commandWord op a h b z) = decodeCommand (commandWord op a h b' z')) ∧
    ((op = 3#8 ∨ op = 9#8 ∨ op = 12#8) →
      decodeCommand (commandWord op a h b z) = decodeCommand (commandWord op a' h' b' z')) ∧
    ((op = 4#8 ∨ op = 7#8 ∨ op = 10#8 ∨ op = 11#8) →
      decodeCommand (commandWord op a h b z) = decodeCommand (commandWord op a' h' b z)) ∧
    (op = 5#8 → decodeCommand (commandWord op a h b z) = decodeCommand (commandWord op a h' b z)) ∧
    (op = 6#8 → decodeCommand (commandWord op a h b z) = decodeCommand (commandWord op a' h b z)) ∧
    (op = 8#8 → decodeCommand (commandWord op a h b z) = decodeCommand (commandWord op a h' b' z'))

/-- R120, R125, R126: the status decoder looks at SR[7:3] only, the row and the condition agree, and the arbitration-loss
detector is true of code 0x38 alone. -/
def Obligations.StatusDecoderIgnoresTheLowBits : Prop :=
  ∀ (sr sr' : Byte),
    (sr &&& 0xF8#8 = sr' &&& 0xF8#8 → decodeStatus sr = decodeStatus sr' ∧ decodeCondition sr = decodeCondition sr') ∧
    (decodeStatus sr).condition = some (decodeCondition sr) ∧
    (arbLost sr = true ↔ sr &&& 0xF8#8 = 0x38#8)

/-- The spec's written-out words: V-ENC-1, 4, 8, 9, 10, 13, 20, 23 and V-DEC-2, 5, 7, 9, 11 of 95_test_vectors.md. -/
def Obligations.WrittenOutWordsDecodeAsTheSpecSays : Prop :=
  decodeCommand 0x0150020000000000#64 = .ok (.beginCmd 0x50#8 0x0200#16) ∧
  decodeCommand 0x022A030000000000#64 = .ok (.sbegin 0x2A#8 0x0300#16) ∧
  decodeCommand 0x053A000001000003#64 = .ok (.wreq1 0x3A#8 0x0100#16 3#16) ∧
  decodeCommand 0x0600123401000002#64 = .ok (.wreq2 0x1234#16 0x0100#16 2#16) ∧
  decodeCommand 0x0700000001100002#64 = .ok (.rreq 0x0110#16 2#16) ∧
  decodeCommand 0x0A00000001300002#64 = .ok (.setrb 0x0130#16 2#16) ∧
  decodeCommand 0x02D4030000000000#64 = .error (.addressBit7 0xD4#8) ∧
  decodeCommand 0x0580000001000001#64 = .ok (.wreq1 0x80#8 0x0100#16 1#16) ∧
  decodeStatus 0x0B#8 = .start ∧ decodeStatus 0x07#8 = .busError ∧ decodeStatus 0x68#8 = .srArbLostSlaAck ∧
  decodeStatus 0xC8#8 = .stLastData ∧ decodeStatus 0xD7#8 = .unmappedD0

/-! ### The step -/

/-- R140, R170, R222, R160, R258, R63: a command turn runs exec of the instruction the presented word decodes to; an event
turn runs exec of the instruction SR decodes to when INT, IE and EN are 1; a command of the call-back, issued out of
flight, runs exec with the two command ports exchanged. A HOST turn presents its word, or stores its byte, unless a word
of the HOST's still waits for its response: then it does nothing.
The model's choice: a turn that is not enabled does nothing (log entry 4), the call-back's own port and the one step in
which its command is presented and executed (log entry 14), the handshake of the HOST's port (log entry 6), host stores
as turns (log entry 23). -/
def Obligations.StepRunsTheDecodedInstruction : Prop :=
  ∀ (s : State) (rest : List Turn),
    (∀ w i, s.script = .command :: rest → s.port = .presented w → decode (.command w) = .ok i →
      step s = exec i { s with script := rest }) ∧
    (s.script = .event :: rest → s.int = true → s.ie = true → s.en = true → ∀ i, decode (.status s.sr) = .ok i →
      step s = exec i { s with script := rest }) ∧
    (s.script = .event :: rest → s.int = false ∨ s.ie = false ∨ s.en = false → step s = .next { s with script := rest }) ∧
    (∀ w i t, s.script = .callCommand w :: rest → s.onRequest.isSome = true → s.busy = false →
      decode (.command w) = .ok i →
      exec i { s with script := rest, port := .presented w, callPort := s.port } = .next t →
      step s = .next { t with port := t.callPort, callPort := t.port }) ∧
    (∀ w, s.script = .hostPresent w :: rest → (∀ v, s.port ≠ .presented v) →
      step s = .next { s with script := rest, port := .presented w }) ∧
    (∀ a b, s.script = .hostStore a b :: rest → (∀ v, s.port ≠ .presented v) →
      step s = .next { s with script := rest, mem := Memory.write s.mem a.toNat b }) ∧
    (∀ w a b v, s.script = .hostPresent w :: rest ∨ s.script = .hostStore a b :: rest → s.port = .presented v →
      step s = .next { s with script := rest })

/-- R170, R253, R60, R285: no step faults and none is refused: every state has a next state; a step takes exactly the
first turn of the script, and no step writes the parameters.
The model's choice: the agents' order is the list `script` (log entry 3), and a state with no turn left answers itself
(log entry 5). -/
def Obligations.EveryStepHasANextStateAndTakesOneTurn : Prop :=
  ∀ s : State, ∃ t, step s = .next t ∧ t.script = s.script.tail ∧ t.params = s.params

/-- R170, R242: every reaction but NO_INFO's clears INT by a control write with bit 7 set, which it hands to the BUS agent, so
the event step is not enabled again, and SR reads NO_INFO from then on; in any state with INT 0 it does.
The model's choice: SR keeps the last status beneath (log entry 11). -/
def Obligations.ReactionsClearTheInterruptFlag : Prop :=
  ∀ (i : Instr) (s t : State), i.condition.isSome = true → i ≠ .noInfo → exec i s = .next t →
    t.int = false ∧ t.eventEnabled = false ∧ (∃ v, v.getLsbD 7 = true ∧ t.pending = some ⟨v, t.dr⟩) ∧
    decodeCondition t.srValue = .noInfo ∧
    ∀ u : State, (u.int = false → u.srValue = 0xF8#8 ||| (u.sr &&& 0x07#8)) ∧ (u.int = true → u.srValue = u.sr)

/-- R170: no reaction reads STATE or ROLE: from states that differ in these two only, a reaction does the same, and STATE
afterwards is either the same value or the one that each had before. -/
def Obligations.ReactionsReadNeitherStateNorRole : Prop :=
  ∀ (i : Instr) (s t : State) (e : EngineState) (r : Role), i.condition.isSome = true → exec i s = .next t →
    ∃ e', exec i { s with state := e, role := r } = .next { t with state := e', role := r } ∧
      (e' = t.state ∨ (e' = e ∧ t.state = s.state))

/-- R186: the transition relation of the event step: the next STATE, COUNT, the control command (as handed to the BUS agent)
and the events of every condition, one clause per row of the table; then the commands: the next STATE of BEGIN, SBEGIN and
the four requests, and the STATE and COUNT of the others, which they keep. What else a command writes is in its own
statement. -/
def Obligations.TransitionRelationOfStateCountCommandAndEvents : Prop :=
  ∀ (i : Instr) (s t : State), exec i s = .next t →
    (i = .start ∨ i = .repStart →
      t.state = s.state ∧ t.count = s.count ∧ t.pending = some ⟨0x85#8, t.dr⟩ ∧ t.evq = s.evq) ∧
    (i = .arbLost →
      t.state = .error ∧ t.count = 0xFFFF#16 ∧ t.pending = some ⟨0xC5#8, t.dr⟩ ∧
      t.evq = if s.target = 0#16 then s.evq else s.evq ++ [⟨.error, s.target, t.count⟩]) ∧
    (i = .mtSlaAck ∨ i = .mtDataAck → (advance s).rem ≠ 0#16 →
      t.state = s.state ∧ t.count = s.count + 1#16 ∧ t.pending = some ⟨0x85#8, t.dr⟩ ∧ t.evq = s.evq) ∧
    ((i = .mtSlaAck ∨ i = .mtDataAck) ∧ (advance s).rem = 0#16 ∨ i = .mtDataNack →
      t.state = .idle ∧ t.count = s.count ∧ t.pending = some ⟨0xD5#8, t.dr⟩ ∧
      t.evq = if s.target = 0#16 then s.evq else s.evq ++ [⟨.writeCompleted, s.target, t.count⟩]) ∧
    (i = .mtSlaNack ∨ i = .mrSlaNack ∨ i = .busError →
      t.state = .error ∧ t.count = 0xFFFF#16 ∧ t.pending = some ⟨0xD5#8, t.dr⟩ ∧
      t.evq = if s.target = 0#16 then s.evq else s.evq ++ [⟨.error, s.target, t.count⟩]) ∧
    (i = .mrSlaAck →
      t.state = s.state ∧ t.count = s.count ∧ t.evq = s.evq ∧
      (t.pending = some ⟨0xC5#8, t.dr⟩ ∨ t.pending = some ⟨0x85#8, t.dr⟩)) ∧
    (i = .mrDataAck ∨ i = .srDataAck ∨ i = .srGcallDataAck →
      t.state = s.state ∧ t.count = (if s.next = s.last then s.count else s.count + 1#16) ∧ t.evq = s.evq ∧
      (t.pending = some ⟨0xC5#8, t.dr⟩ ∨ t.pending = some ⟨0x85#8, t.dr⟩)) ∧
    (i = .mrDataNack →
      t.state = .idle ∧ t.count = (if s.next = s.last then s.count else s.count + 1#16) ∧
      t.pending = some ⟨0xD5#8, t.dr⟩ ∧
      t.evq = if s.target = 0#16 then s.evq else s.evq ++ [⟨.readCompleted, s.target, t.count⟩]) ∧
    (i = .noInfo → t = s) ∧
    (i.condition = some .unmapped →
      t.state = .idle ∧ t.count = s.count ∧ t.pending = some ⟨0xC5#8, t.dr⟩ ∧ t.evq = s.evq) ∧
    (i = .srSlaAck ∨ i = .srArbLostSlaAck ∨ i = .srGcallAck ∨ i = .srArbLostGcallAck →
      t.state = .sr ∧ t.count = 0#16 ∧ t.evq = s.evq ∧
      (t.pending = some ⟨0xC5#8, t.dr⟩ ∨ t.pending = some ⟨0x85#8, t.dr⟩)) ∧
    (i = .srDataNack ∨ i = .srGcallDataNack ∨ i = .srStop →
      t.state = .idle ∧ t.count = s.count ∧ t.pending = some ⟨0xC5#8, t.dr⟩ ∧
      t.evq = if s.target = 0#16 then s.evq else s.evq ++ [⟨.writeCompleted, s.target, t.count⟩]) ∧
    (i = .stSlaAck ∨ i = .stArbLostSlaAck →
      t.state = .st ∧ t.count = (if s.slvRd.buf = 0#16 ∨ s.slvRd.len = 0#16 then 0#16 else 1#16) ∧ t.evq = s.evq ∧
      (t.pending = some ⟨0xC5#8, t.dr⟩ ∨ t.pending = some ⟨0x85#8, t.dr⟩)) ∧
    (i = .stDataAck →
      t.state = s.state ∧ t.count = (if s.next = s.last then s.count else s.count + 1#16) ∧ t.evq = s.evq ∧
      (t.pending = some ⟨0xC5#8, t.dr⟩ ∨ t.pending = some ⟨0x85#8, t.dr⟩)) ∧
    (i = .stDataNack ∨ i = .stLastData →
      t.state = .idle ∧ t.count = s.count ∧ t.pending = some ⟨0xC5#8, t.dr⟩ ∧ t.evq = s.evq) ∧
    (isBind i = true → t.state = if i.wellFormed = true ∧ s.role = .none then .idle else s.state) ∧
    (isWriteRequest i = true →
      t.state = if s.role = .master ∧ s.state = .idle ∧ writeTotal i ≤ 32767 then .mt else s.state) ∧
    (∀ buf size, i = .rreq buf size →
      t.state = if s.role = .master ∧ s.state = .idle ∧ size.toNat ≤ 32767 ∧ buf ≠ 0#16 ∧ size ≠ 0#16 then .mr
        else s.state) ∧
    (i.condition = none → isBind i = false → isRequest i = false → t.state = s.state ∧ t.count = s.count)

/-! ### Frames -/

/-- R266, the handler context: every reaction leaves every register the table does not give to the handler: ROLE, DEV,
ADDR, VEC, HDR, TARGET, SLV_WR, SLV_RD, PUE, BRR, SR, the ports and the parameters; only the end of a slave's write
phase writes AR, to the disarmed value, and CALLBACK_DUE, to true; IX moves in a master transmitter's reactions only. -/
def Obligations.HandlerContextFrame : Prop :=
  ∀ (i : Instr) (s t : State), i.condition.isSome = true → exec i s = .next t →
    t.role = s.role ∧ t.dev = s.dev ∧ t.addr = s.addr ∧ t.vec = s.vec ∧ t.hdr0 = s.hdr0 ∧ t.hdr1 = s.hdr1 ∧
    t.target = s.target ∧ t.slvWr = s.slvWr ∧ t.slvRd = s.slvRd ∧ t.pue = s.pue ∧ t.brr = s.brr ∧ t.sr = s.sr ∧
    t.port = s.port ∧ t.callPort = s.callPort ∧ t.onRequest = s.onRequest ∧ t.params = s.params ∧
    t.script = s.script ∧
    ((i ≠ .srDataNack ∧ i ≠ .srGcallDataNack ∧ i ≠ .srStop) → t.ar = s.ar ∧ t.callbackDue = s.callbackDue) ∧
    (t.ar = s.ar ∨ t.ar = 0x00#8) ∧ (s.callbackDue = true → t.callbackDue = true) ∧
    ((i ≠ .mtSlaAck ∧ i ≠ .mtDataAck) → t.ix = s.ix)

/-- R266, the foreground context: what each group of commands leaves unchanged. No command writes DR, EVQ or a byte of the
data space. -/
def Obligations.ForegroundContextFrame : Prop :=
  ∀ (i : Instr) (s t : State), i.condition = none → exec i s = .next t →
    t.dr = s.dr ∧ t.evq = s.evq ∧ (∀ a : Ptr, t.dataByte a = s.dataByte a) ∧ t.callPort = s.callPort ∧
    t.onRequest = s.onRequest ∧ t.params = s.params ∧ t.script = s.script ∧
    (isBind i = false → t.dev = s.dev ∧ t.pue = s.pue ∧ t.sr = s.sr ∧ t.brr = s.brr) ∧
    (isBind i = false → i ≠ .endCmd → t.role = s.role ∧ t.target = s.target) ∧
    (isBind i = false → i ≠ .rearm → t.ar = s.ar) ∧
    (isBind i = false → isRequest i = false →
      t.state = s.state ∧ t.count = s.count ∧ t.next = s.next ∧ t.last = s.last ∧ t.ix = s.ix) ∧
    (isBind i = false → isRequest i = false → i ≠ .endCmd → t.cr = s.cr ∧ t.pending = s.pending) ∧
    (isRequest i = false → t.vec = s.vec ∧ t.addr = s.addr) ∧
    ((∀ h b z, i ≠ .wreq1 h b z) → (∀ h b z, i ≠ .wreq2 h b z) → t.hdr0 = s.hdr0) ∧
    ((∀ h b z, i ≠ .wreq2 h b z) → t.hdr1 = s.hdr1) ∧
    ((∀ b z, i ≠ .setrb b z) → t.slvRd = s.slvRd) ∧ ((∀ b z, i ≠ .setwb b z) → t.slvWr = s.slvWr) ∧
    ((∀ a g, i ≠ .sbegin a g) → i ≠ .endCmd → i ≠ .rearm → t.callbackDue = s.callbackDue)

/-- R53, R180, R181, R210, R211: the four reactions that store a received byte write the byte at NEXT, with the value in DR,
only while bytes are left, and no other; every other instruction leaves every byte of the data space as it was. -/
def Obligations.OnlyTheByteAtNextIsStored : Prop :=
  ∀ (i : Instr) (s t : State), exec i s = .next t →
    (storesByte i = true → ∀ a : Ptr,
      t.dataByte a = if s.next ≠ s.last ∧ a = s.next then s.dr else s.dataByte a) ∧
    (storesByte i = false → ∀ a : Ptr, t.dataByte a = s.dataByte a)

/-- R25, R63: while an engine is bound and a transfer is in flight every command keeps STATE, COUNT, the cursor, VEC, HDR, ADDR
and DEV. (END with TARGET = 0 keeps them too, but it unbinds, writes OFF_CMD and so abandons the transfer: R142 (b), R293.)
R160: only an event step ends a hold (or a reset, R282): after a step of any other turn a HOST's command that held is
still presented and still holds.
The model's choice: the call-back issues commands only out of flight, and on a port of its own (log entry 14), without
which the hold clause would not hold of its commands; a turn that is not enabled does nothing (log entry 4). -/
def Obligations.CommandsKeepTheRegistersOfABoundTransfer : Prop :=
  (∀ (i : Instr) (s t : State), i.condition = none → s.role ≠ .none → s.busy = true → exec i s = .next t →
    t.state = s.state ∧ t.count = s.count ∧ t.next = s.next ∧ t.last = s.last ∧ t.ix = s.ix ∧ t.vec = s.vec ∧
    t.hdr0 = s.hdr0 ∧ t.hdr1 = s.hdr1 ∧ t.addr = s.addr ∧ t.dev = s.dev) ∧
  (∀ (i : Instr) (w : CmdWord) (s t : State), s.port = .presented w → decode (.command w) = .ok i → exec i s = .next s →
    (∀ rest, s.script ≠ .event :: rest) → (∀ rest, s.script ≠ .reset :: rest) → step s = .next t →
    t.port = .presented w ∧ exec i t = .next t)

/-! ### The environment's turns -/

/-- R231, R236: what a control command does to the BUS agent's mode, in the places where the engine's rules write it.
The model's choice: the mode changes at the control write (log entry 9). -/
def Obligations.ControlCommandsMoveTheBusMode : Prop :=
  ∀ s : State,
    (crWrite 0x00#8 s).busMode = .off ∧ (s.busMode = .off → (crWrite 0x45#8 s).busMode = .free) ∧
    (crWrite 0xE5#8 s).busMode = .mStart ∧ (crWrite 0xD5#8 s).busMode = .free ∧
    (s.busLast = some .start ∨ s.busLast = some .repStart → (crWrite 0x85#8 s).busMode = .mAddr) ∧
    (s.busLast = some .mtSlaAck ∨ s.busLast = some .mtDataAck → (crWrite 0x85#8 s).busMode = .mTx) ∧
    (s.busLast = some .mrSlaAck ∨ s.busLast = some .mrDataAck →
      (crWrite 0xC5#8 s).busMode = .mRx ∧ (crWrite 0x85#8 s).busMode = .mRx) ∧
    (s.busLast = some .srSlaAck ∨ s.busLast = some .srDataAck →
      (crWrite 0xC5#8 s).busMode = .sRx ∧ (crWrite 0x85#8 s).busMode = .sRx) ∧
    (s.busLast = some .stSlaAck ∨ s.busLast = some .stDataAck →
      (crWrite 0xC5#8 s).busMode = .sTx ∧ (crWrite 0x85#8 s).busMode = .sTx) ∧
    (∀ c, s.busLast = some c →
      (c = .arbLost ∨ c = .srStop ∨ c = .srDataNack ∨ c = .stDataNack ∨ c = .stLastData ∨ c = .unmapped) →
      (crWrite 0xC5#8 s).busMode = .free)

/-- R230, R236: the BUS agent's turns. A delivery, possible while EN is 1 and INT is 0, writes SR[7:3], DR for a receive
event, PENDING and INT and no engine register; while INT is 1 or EN is 0 it does nothing. Finishing STOP_CMD clears
STO and PENDING with no event; finishing OFF_CMD clears PENDING with the controller off; finishing RELEASE_CMD or ACK_CMD
in mode FREE clears PENDING and keeps CR. A command that has an answer is not finished.
The model's choice: both turns keep `busMode`, also where R231, R243 and R244 have FREE entered at the end of a slave
transfer and R236 says that finishing goes to FREE or OFF: it has moved, or moves, at the control write (log entry 9);
`busLast` (log entry 12), when finishing may happen (log entry 10), and that a delivery or a finishing turn that is not
enabled does nothing and is used up (log entry 4). -/
def Obligations.BusTurnsDeliverAndFinish : Prop :=
  ∀ (s : State) (code data : Byte) (rest : List Turn),
    (s.script = .deliver code data :: rest → s.en = true → s.int = false →
      step s = .next { s with
        script := rest
        sr := (code &&& 0xF8#8) ||| (s.sr &&& 0x07#8)
        dr := if [0x50#8, 0x58#8, 0x80#8, 0x88#8, 0x90#8, 0x98#8].contains (code &&& 0xF8#8) then data else s.dr
        pending := none
        cr := s.cr ||| 0x80#8
        busLast := some (decodeCondition code) }) ∧
    (s.script = .deliver code data :: rest → s.en = false ∨ s.int = true →
      step s = .next { s with script := rest }) ∧
    (∀ d, s.script = .finish :: rest → s.pending = some ⟨0xD5#8, d⟩ → s.en = true → s.int = false →
      step s = .next { s with script := rest, pending := none, cr := s.cr &&& 0xEF#8 }) ∧
    (∀ d, s.script = .finish :: rest → s.pending = some ⟨0x00#8, d⟩ →
      step s = .next { s with script := rest, pending := none }) ∧
    (∀ d, s.script = .finish :: rest → s.pending = some ⟨0xC5#8, d⟩ → s.busMode = .free → s.en = true → s.int = false →
      step s = .next { s with script := rest, pending := none }) ∧
    (∀ v d, s.script = .finish :: rest → s.pending = some ⟨v, d⟩ → v ≠ 0xD5#8 → v ≠ 0x00#8 →
      (v = 0xC5#8 → s.busMode ≠ .free) → step s = .next { s with script := rest }) ∧
    (∀ v d, s.script = .finish :: rest → s.pending = some ⟨v, d⟩ → v ≠ 0x00#8 → s.en = false ∨ s.int = true →
      step s = .next { s with script := rest }) ∧
    (s.script = .finish :: rest → s.pending = none → step s = .next { s with script := rest })

/-- R262, R222, R142 (e): EVENTQ takes the oldest record, one at a time; for the bound slave's WRITE_COMPLETED it calls
`on_request` with SLV_WR's buffer and the count; while that runs it may store bytes; when it returns EVENTQ presents
REARM, which arms the slave, or is refused after an END. With no call-back running these turns do nothing, and in flight
the call-back issues no command.
The model's choice: which record calls back, that an END leaves a running call-back running, and that no record is taken
until its REARM has executed (log entry 13); the call-back's own port and the one step of each of its commands (log
entry 14); that a turn that is not enabled does nothing (log entry 4). -/
def Obligations.EventqDispatchesCallsBackAndRearms : Prop :=
  ∀ (s : State) (r : EventRecord) (records : List EventRecord) (rest : List Turn) (a : Ptr) (b : Byte) (w : CmdWord),
    (s.script = .dispatch :: rest → s.onRequest = none → s.evq = r :: records →
      (r.type = .writeCompleted → s.role = .slave → r.target = s.target → s.callbackDue = true →
        step s = .next { s with script := rest, evq := records, onRequest := some ⟨s.slvWr.buf, r.value⟩ }) ∧
      (r.type ≠ .writeCompleted ∨ s.role ≠ .slave ∨ r.target ≠ s.target ∨ s.callbackDue = false →
        step s = .next { s with script := rest, evq := records })) ∧
    (s.script = .dispatch :: rest → s.onRequest ≠ none ∨ s.evq = [] → step s = .next { s with script := rest }) ∧
    (s.script = .callStore a b :: rest → s.onRequest.isSome = true →
      step s = .next { s with script := rest, mem := Memory.write s.mem a.toNat b }) ∧
    (s.script = .callReturn :: rest → s.onRequest.isSome = true → s.role = .slave →
      step s = .next { s with
        script := rest
        onRequest := none
        callbackDue := false
        ar := s.dev
        callPort := .answered (responseWord s.state 0#16) }) ∧
    (s.script = .callReturn :: rest → s.onRequest.isSome = true → s.role ≠ .slave →
      step s = .next { s with
        script := rest
        onRequest := none
        callbackDue := false
        callPort := .answered (responseWord s.state 0xFFFF#16) }) ∧
    (s.onRequest = none →
      s.script = .callReturn :: rest ∨ s.script = .callStore a b :: rest ∨ s.script = .callCommand w :: rest →
      step s = .next { s with script := rest }) ∧
    (s.script = .callCommand w :: rest → s.busy = true → step s = .next { s with script := rest })

/-- R260, R261, R262: EVQ is a queue: a step leaves it, or it is an event step that appends one record, which carries TARGET
(not 0) and the final COUNT, or a dispatch that takes the oldest record, or a reset. -/
def Obligations.EventQueueGrowsAtTheTailOnly : Prop :=
  ∀ s t : State, step s = .next t →
    t.evq = s.evq ∨
    (∃ rest type, s.script = .event :: rest ∧ s.target ≠ 0#16 ∧ t.evq = s.evq ++ [⟨type, s.target, t.count⟩]) ∨
    (∃ rest r, s.script = .dispatch :: rest ∧ s.evq = r :: t.evq) ∨
    (∃ rest, s.script = .reset :: rest ∧ t.evq = [])

/-! ### Invariants -/

/-- The engine's invariant, the invariant of contract runs, the one of room in transfers and the one of runs that abandon no
transfer hold at reset. -/
def Obligations.InvariantsHoldAtReset : Prop :=
  EngineInv State.reset ∧ ContractInv State.reset ∧ RoomInv State.reset ∧ FlightInv State.reset

/-- Every turn of every agent, contract or not, keeps the engine's invariant: the data space keeps its canonical form, the
bits that read 0 stay 0 (R31, R32), DEV keeps bit 0 = 0 and ADDR is DEV with the operation bit in a master transfer
(R13), a master is disarmed and a slave is armed with its own address or disarmed (R141, R203, R215), and the interrupt
is masked exactly while nothing is bound (R257). -/
def Obligations.EngineInvariantIsKeptByEveryStep : Prop :=
  ∀ s t : State, EngineInv s → step s = .next t → EngineInv t

/-- Every turn that respects the bus controller contract (R246) keeps the invariant of contract runs, and with it the
invariant of room in transfers and, where no END abandons a transfer (R293), the invariant of such runs.
The model's choice: the invariants speak of `busMode`, which changes at the control write (log entry 9), and of `busLast`
(log entry 12). -/
def Obligations.ContractInvariantsAreKeptByEveryContractStep : Prop :=
  ∀ s t : State, EngineInv s → ContractInv s → ContractHolds s → step s = .next t →
    ContractInv t ∧ (RoomInv s → RoomInv t) ∧ (FlightInv s → KeepsTransfers s t → FlightInv t)

/-- R247 (a), (d): in every run from reset that respects the contract, whatever the data space, the parameters and the
order of the turns, an enabled event step occurs only while something is bound, and sees a condition the contract can
deliver: never REP_START, a general-call condition, a combined arbitration-lost condition, UNMAPPED or NO_INFO.
R246, the contract itself: the events that may be delivered, row by row (with R233's repeated START).
The model's choice: when the mode changes (log entry 9), which events count as the last of the transfer, and so where
REP_START is a legal answer to START_CMD (log entry 12). -/
def Obligations.ContractRunsNeverSeeTheExcludedConditions : Prop :=
  (∀ s : State, ContractReachable s → s.eventEnabled = true →
    s.role ≠ .none ∧ deliverable (decodeCondition s.srValue) = true) ∧
  (∀ (s : State) (code : Byte), legalDelivery s code = true ↔
    (s.busMode = .free ∧ s.en = true ∧ s.ea = true ∧ s.ar ≠ 0x00#8 ∧ s.int = false ∧ s.pending = none ∧
      (decodeCondition code = .srSlaAck ∨ decodeCondition code = .stSlaAck)) ∨
    ∃ d, (s.busMode = .mStart ∧ s.pending = some ⟨0xE5#8, d⟩ ∧
        ((s.busLast = none ∧ decodeCondition code = .start) ∨ (s.busLast ≠ none ∧ decodeCondition code = .repStart))) ∨
      (s.busMode = .mAddr ∧ s.pending = some ⟨0x85#8, d⟩ ∧ d.getLsbD 0 = false ∧
        (decodeCondition code = .mtSlaAck ∨ decodeCondition code = .mtSlaNack ∨ decodeCondition code = .arbLost ∨
          decodeCondition code = .busError)) ∨
      (s.busMode = .mAddr ∧ s.pending = some ⟨0x85#8, d⟩ ∧ d.getLsbD 0 = true ∧
        (decodeCondition code = .mrSlaAck ∨ decodeCondition code = .mrSlaNack ∨ decodeCondition code = .arbLost ∨
          decodeCondition code = .busError)) ∨
      (s.busMode = .mTx ∧ s.pending = some ⟨0x85#8, d⟩ ∧
        (decodeCondition code = .mtDataAck ∨ decodeCondition code = .mtDataNack ∨ decodeCondition code = .arbLost ∨
          decodeCondition code = .busError)) ∨
      (s.busMode = .mRx ∧ s.pending = some ⟨0xC5#8, d⟩ ∧
        (decodeCondition code = .mrDataAck ∨ decodeCondition code = .busError)) ∨
      (s.busMode = .mRx ∧ s.pending = some ⟨0x85#8, d⟩ ∧
        (decodeCondition code = .mrDataNack ∨ decodeCondition code = .arbLost ∨ decodeCondition code = .busError)) ∨
      (s.busMode = .sRx ∧ s.pending = some ⟨0xC5#8, d⟩ ∧
        (decodeCondition code = .srDataAck ∨ decodeCondition code = .srStop ∨ decodeCondition code = .busError)) ∨
      (s.busMode = .sRx ∧ s.pending = some ⟨0x85#8, d⟩ ∧
        (decodeCondition code = .srDataNack ∨ decodeCondition code = .srStop ∨ decodeCondition code = .busError)) ∨
      (s.busMode = .sTx ∧ s.pending = some ⟨0xC5#8, d⟩ ∧
        (decodeCondition code = .stDataAck ∨ decodeCondition code = .stDataNack ∨ decodeCondition code = .busError)) ∨
      (s.busMode = .sTx ∧ s.pending = some ⟨0x85#8, d⟩ ∧
        (decodeCondition code = .stDataNack ∨ decodeCondition code = .stLastData ∨ decodeCondition code = .busError)))

/-- R247 (b), (c): in every run from reset that respects the contract, a received byte of a master read in flight finds
room, so none is dropped, and one that was ACKed leaves room for one more; and at ST_DATA_ACK of a slave transmission in
flight a byte is left, so the filler is not sent. In every such run whose software keeps R293, so that no END abandons a
transfer, the events of a read and of a slave transmission come only while that transfer is in flight, so all of them find
room. (The one other case: an event of a transfer that END abandoned, left waiting until the next BEGIN or SBEGIN. R142 (c) and
R31 keep its INT, and its reaction then finds STATE = IDLE: log entry 21.) -/
def Obligations.TransfersInFlightAlwaysHaveRoom : Prop :=
  (∀ s : State, ContractReachable s → s.eventEnabled = true →
    (s.state = .mr → decodeCondition s.srValue = .mrDataAck → 2 ≤ s.rem.toNat) ∧
    (s.state = .mr → decodeCondition s.srValue = .mrDataNack → 1 ≤ s.rem.toNat) ∧
    (s.state = .st → decodeCondition s.srValue = .stDataAck → 1 ≤ s.rem.toNat)) ∧
  (∀ s : State, DrainedReachable s → s.eventEnabled = true →
    (decodeCondition s.srValue = .mrDataAck → s.state = .mr ∧ 2 ≤ s.rem.toNat) ∧
    (decodeCondition s.srValue = .mrDataNack → s.state = .mr ∧ 1 ≤ s.rem.toNat) ∧
    (decodeCondition s.srValue = .stDataAck → s.state = .st ∧ 1 ≤ s.rem.toNat))

/-! ### Whole transfers -/

/-- R110, R111, R306: a write request that is accepted and meets only ACKs: at every position the byte handed to the BUS
agent is the header's, then the payload's in address order; after `total + 2` reactions it has ended in IDLE with a
STOP, COUNT is the total, and WRITE_COMPLETED carries it. -/
def Obligations.AckedWriteSendsEveryByteInOrder : Prop :=
  ∀ (i : Instr) (s : State), isWriteRequest i = true → s.role = .master → s.state = .idle →
    writeTotal i ≤ 32767 →
    (∀ k, k < writeTotal i →
      ∃ t, runInstrs ([i, .start, .mtSlaAck] ++ List.replicate k .mtDataAck) s = .next t ∧
        t.pending = some ⟨0x85#8, writeByte i s k⟩ ∧ t.state = .mt ∧ t.count = BitVec.ofNat 16 (k + 1) ∧
        t.evq = s.evq) ∧
    ∃ t, runInstrs ([i, .start, .mtSlaAck] ++ List.replicate (writeTotal i) .mtDataAck) s = .next t ∧
      t.state = .idle ∧ t.count = BitVec.ofNat 16 (writeTotal i) ∧ t.pending = some ⟨0xD5#8, t.dr⟩ ∧
      t.evq = if s.target = 0#16 then s.evq
        else s.evq ++ [⟨.writeCompleted, s.target, BitVec.ofNat 16 (writeTotal i)⟩]

/-- R111, R306: an accepted read of n bytes that meets START, MR_SLA_ACK, MR_DATA_ACK for the first n - 1 bytes and
MR_DATA_NACK for the last ends in IDLE with COUNT = n, READ_COMPLETED carries n, the received bytes stand in the buffer
in order, and every other byte of the data space is unchanged. -/
def Obligations.AckedReadStoresEveryByteInOrder : Prop :=
  ∀ (buf : Ptr) (size : Half) (bytes : List Byte) (s : State), buf ≠ 0#16 → 1 ≤ bytes.length → bytes.length ≤ 32767 →
    size = BitVec.ofNat 16 bytes.length → s.role = .master → s.state = .idle →
    ∃ t u, runInstrs [.rreq buf size, .start, .mrSlaAck] s = .next t ∧ receiveBytes bytes t = .next u ∧
      u.state = .idle ∧ u.count = size ∧ u.pending = some ⟨0xD5#8, u.dr⟩ ∧
      (u.evq = if s.target = 0#16 then s.evq else s.evq ++ [⟨.readCompleted, s.target, size⟩]) ∧
      (∀ k, (h : k < bytes.length) → u.dataByte (buf + BitVec.ofNat 16 k) = bytes[k]) ∧
      (∀ a : Ptr, (∀ k, k < bytes.length → a ≠ buf + BitVec.ofNat 16 k) → u.dataByte a = s.dataByte a)
end

