-- ==== Sys2Proof/Laws/Decode.lean ====
section
/-! SUPPORT. The small lemmas of the command fields and of the status decoder (R71, R78, R120). -/

namespace Sys2Proof

@[simp] theorem opcOf_commandWord (o a : Byte) (h : Half) (b : Ptr) (z : Half) : opcOf (commandWord o a h b z) = o := by
  apply BitVec.eq_of_getLsbD_eq
  intro i hi
  simp only [opcOf, commandWord, BitVec.getLsbD_extractLsb', BitVec.getLsbD_append]
  have h1 : ¬ (56 + i < 16) := by omega
  have h2 : ¬ (56 + i - 16 < 16) := by omega
  have h3 : ¬ (56 + i - 16 - 16 < 16) := by omega
  have h4 : ¬ (56 + i - 16 - 16 - 16 < 8) := by omega
  have h5 : 56 + i - 16 - 16 - 16 - 8 = i := by omega
  simp [hi, h1, h2, h3, h4, h5]

@[simp] theorem a8Of_commandWord (o a : Byte) (h : Half) (b : Ptr) (z : Half) : a8Of (commandWord o a h b z) = a := by
  apply BitVec.eq_of_getLsbD_eq
  intro i hi
  simp only [a8Of, commandWord, BitVec.getLsbD_extractLsb', BitVec.getLsbD_append]
  have h1 : ¬ (48 + i < 16) := by omega
  have h2 : ¬ (48 + i - 16 < 16) := by omega
  have h3 : ¬ (48 + i - 16 - 16 < 16) := by omega
  have h5 : 48 + i - 16 - 16 - 16 = i := by omega
  simp [hi, h1, h2, h3, h5]

@[simp] theorem h16Of_commandWord (o a : Byte) (h : Half) (b : Ptr) (z : Half) : h16Of (commandWord o a h b z) = h := by
  apply BitVec.eq_of_getLsbD_eq
  intro i hi
  simp only [h16Of, commandWord, BitVec.getLsbD_extractLsb', BitVec.getLsbD_append]
  have h1 : ¬ (32 + i < 16) := by omega
  have h2 : ¬ (32 + i - 16 < 16) := by omega
  have h4 : 32 + i - 16 - 16 = i := by omega
  simp [hi, h1, h2, h4]

@[simp] theorem bufOf_commandWord (o a : Byte) (h : Half) (b : Ptr) (z : Half) : bufOf (commandWord o a h b z) = b := by
  apply BitVec.eq_of_getLsbD_eq
  intro i hi
  simp only [bufOf, commandWord, BitVec.getLsbD_extractLsb', BitVec.getLsbD_append]
  have h1 : ¬ (16 + i < 16) := by omega
  have h3 : 16 + i - 16 = i := by omega
  simp [hi, h1, h3]

@[simp] theorem sizeOf_commandWord (o a : Byte) (h : Half) (b : Ptr) (z : Half) : sizeOf (commandWord o a h b z) = z := by
  apply BitVec.eq_of_getLsbD_eq
  intro i hi
  simp only [sizeOf, commandWord, BitVec.getLsbD_extractLsb', BitVec.getLsbD_append]
  simp [hi]

/-- R79, R120: the condition of the decoded row is the decoded condition. -/
theorem condition_decodeStatus (sr : Byte) : (decodeStatus sr).condition = some (decodeCondition sr) := by
  revert sr; decide

/-- A status byte never decodes to a command. -/
theorem decodeStatus_wellFormed (sr : Byte) : (decodeStatus sr).wellFormed = true := by
  revert sr; decide

end Sys2Proof
end

