-- ==== Sys2Proof/Laws/State.lean ====
section
/-! SUPPORT. The small lemmas of the state's updates: for each shared operation one lemma per field it leaves alone,
and its own values for the fields it writes. -/

namespace Sys2Proof.Machine

/-! ### crWrite (R31) writes cr, pending, busMode, busLast only -/

@[simp] theorem crWrite_state (v : Byte) (s : State) : (crWrite v s).state = s.state := rfl
@[simp] theorem crWrite_role (v : Byte) (s : State) : (crWrite v s).role = s.role := rfl
@[simp] theorem crWrite_dev (v : Byte) (s : State) : (crWrite v s).dev = s.dev := rfl
@[simp] theorem crWrite_addr (v : Byte) (s : State) : (crWrite v s).addr = s.addr := rfl
@[simp] theorem crWrite_count (v : Byte) (s : State) : (crWrite v s).count = s.count := rfl
@[simp] theorem crWrite_next (v : Byte) (s : State) : (crWrite v s).next = s.next := rfl
@[simp] theorem crWrite_last (v : Byte) (s : State) : (crWrite v s).last = s.last := rfl
@[simp] theorem crWrite_ix (v : Byte) (s : State) : (crWrite v s).ix = s.ix := rfl
@[simp] theorem crWrite_vec (v : Byte) (s : State) : (crWrite v s).vec = s.vec := rfl
@[simp] theorem crWrite_hdr0 (v : Byte) (s : State) : (crWrite v s).hdr0 = s.hdr0 := rfl
@[simp] theorem crWrite_hdr1 (v : Byte) (s : State) : (crWrite v s).hdr1 = s.hdr1 := rfl
@[simp] theorem crWrite_target (v : Byte) (s : State) : (crWrite v s).target = s.target := rfl
@[simp] theorem crWrite_slvWr (v : Byte) (s : State) : (crWrite v s).slvWr = s.slvWr := rfl
@[simp] theorem crWrite_slvRd (v : Byte) (s : State) : (crWrite v s).slvRd = s.slvRd := rfl
@[simp] theorem crWrite_pue (v : Byte) (s : State) : (crWrite v s).pue = s.pue := rfl
@[simp] theorem crWrite_sr (v : Byte) (s : State) : (crWrite v s).sr = s.sr := rfl
@[simp] theorem crWrite_dr (v : Byte) (s : State) : (crWrite v s).dr = s.dr := rfl
@[simp] theorem crWrite_ar (v : Byte) (s : State) : (crWrite v s).ar = s.ar := rfl
@[simp] theorem crWrite_brr (v : Byte) (s : State) : (crWrite v s).brr = s.brr := rfl
@[simp] theorem crWrite_evq (v : Byte) (s : State) : (crWrite v s).evq = s.evq := rfl
@[simp] theorem crWrite_callbackDue (v : Byte) (s : State) : (crWrite v s).callbackDue = s.callbackDue := rfl
@[simp] theorem crWrite_mem (v : Byte) (s : State) : (crWrite v s).mem = s.mem := rfl
@[simp] theorem crWrite_port (v : Byte) (s : State) : (crWrite v s).port = s.port := rfl
@[simp] theorem crWrite_callPort (v : Byte) (s : State) : (crWrite v s).callPort = s.callPort := rfl
@[simp] theorem crWrite_onRequest (v : Byte) (s : State) : (crWrite v s).onRequest = s.onRequest := rfl
@[simp] theorem crWrite_params (v : Byte) (s : State) : (crWrite v s).params = s.params := rfl
@[simp] theorem crWrite_script (v : Byte) (s : State) : (crWrite v s).script = s.script := rfl

/-! ### respond (R76) writes port only -/

@[simp] theorem respond_state (r : Half) (s : State) : (respond r s).state = s.state := rfl
@[simp] theorem respond_role (r : Half) (s : State) : (respond r s).role = s.role := rfl
@[simp] theorem respond_dev (r : Half) (s : State) : (respond r s).dev = s.dev := rfl
@[simp] theorem respond_addr (r : Half) (s : State) : (respond r s).addr = s.addr := rfl
@[simp] theorem respond_count (r : Half) (s : State) : (respond r s).count = s.count := rfl
@[simp] theorem respond_next (r : Half) (s : State) : (respond r s).next = s.next := rfl
@[simp] theorem respond_last (r : Half) (s : State) : (respond r s).last = s.last := rfl
@[simp] theorem respond_ix (r : Half) (s : State) : (respond r s).ix = s.ix := rfl
@[simp] theorem respond_vec (r : Half) (s : State) : (respond r s).vec = s.vec := rfl
@[simp] theorem respond_hdr0 (r : Half) (s : State) : (respond r s).hdr0 = s.hdr0 := rfl
@[simp] theorem respond_hdr1 (r : Half) (s : State) : (respond r s).hdr1 = s.hdr1 := rfl
@[simp] theorem respond_target (r : Half) (s : State) : (respond r s).target = s.target := rfl
@[simp] theorem respond_slvWr (r : Half) (s : State) : (respond r s).slvWr = s.slvWr := rfl
@[simp] theorem respond_slvRd (r : Half) (s : State) : (respond r s).slvRd = s.slvRd := rfl
@[simp] theorem respond_pue (r : Half) (s : State) : (respond r s).pue = s.pue := rfl
@[simp] theorem respond_cr (r : Half) (s : State) : (respond r s).cr = s.cr := rfl
@[simp] theorem respond_sr (r : Half) (s : State) : (respond r s).sr = s.sr := rfl
@[simp] theorem respond_dr (r : Half) (s : State) : (respond r s).dr = s.dr := rfl
@[simp] theorem respond_ar (r : Half) (s : State) : (respond r s).ar = s.ar := rfl
@[simp] theorem respond_brr (r : Half) (s : State) : (respond r s).brr = s.brr := rfl
@[simp] theorem respond_pending (r : Half) (s : State) : (respond r s).pending = s.pending := rfl
@[simp] theorem respond_evq (r : Half) (s : State) : (respond r s).evq = s.evq := rfl
@[simp] theorem respond_callbackDue (r : Half) (s : State) : (respond r s).callbackDue = s.callbackDue := rfl
@[simp] theorem respond_mem (r : Half) (s : State) : (respond r s).mem = s.mem := rfl
@[simp] theorem respond_callPort (r : Half) (s : State) : (respond r s).callPort = s.callPort := rfl
@[simp] theorem respond_onRequest (r : Half) (s : State) : (respond r s).onRequest = s.onRequest := rfl
@[simp] theorem respond_busMode (r : Half) (s : State) : (respond r s).busMode = s.busMode := rfl
@[simp] theorem respond_busLast (r : Half) (s : State) : (respond r s).busLast = s.busLast := rfl
@[simp] theorem respond_params (r : Half) (s : State) : (respond r s).params = s.params := rfl
@[simp] theorem respond_script (r : Half) (s : State) : (respond r s).script = s.script := rfl

/-! ### bump (R175) writes next, count only -/

@[simp] theorem bump_state (s : State) : (bump s).state = s.state := rfl
@[simp] theorem bump_role (s : State) : (bump s).role = s.role := rfl
@[simp] theorem bump_dev (s : State) : (bump s).dev = s.dev := rfl
@[simp] theorem bump_addr (s : State) : (bump s).addr = s.addr := rfl
@[simp] theorem bump_last (s : State) : (bump s).last = s.last := rfl
@[simp] theorem bump_ix (s : State) : (bump s).ix = s.ix := rfl
@[simp] theorem bump_vec (s : State) : (bump s).vec = s.vec := rfl
@[simp] theorem bump_hdr0 (s : State) : (bump s).hdr0 = s.hdr0 := rfl
@[simp] theorem bump_hdr1 (s : State) : (bump s).hdr1 = s.hdr1 := rfl
@[simp] theorem bump_target (s : State) : (bump s).target = s.target := rfl
@[simp] theorem bump_slvWr (s : State) : (bump s).slvWr = s.slvWr := rfl
@[simp] theorem bump_slvRd (s : State) : (bump s).slvRd = s.slvRd := rfl
@[simp] theorem bump_pue (s : State) : (bump s).pue = s.pue := rfl
@[simp] theorem bump_cr (s : State) : (bump s).cr = s.cr := rfl
@[simp] theorem bump_sr (s : State) : (bump s).sr = s.sr := rfl
@[simp] theorem bump_dr (s : State) : (bump s).dr = s.dr := rfl
@[simp] theorem bump_ar (s : State) : (bump s).ar = s.ar := rfl
@[simp] theorem bump_brr (s : State) : (bump s).brr = s.brr := rfl
@[simp] theorem bump_pending (s : State) : (bump s).pending = s.pending := rfl
@[simp] theorem bump_evq (s : State) : (bump s).evq = s.evq := rfl
@[simp] theorem bump_callbackDue (s : State) : (bump s).callbackDue = s.callbackDue := rfl
@[simp] theorem bump_mem (s : State) : (bump s).mem = s.mem := rfl
@[simp] theorem bump_port (s : State) : (bump s).port = s.port := rfl
@[simp] theorem bump_callPort (s : State) : (bump s).callPort = s.callPort := rfl
@[simp] theorem bump_onRequest (s : State) : (bump s).onRequest = s.onRequest := rfl
@[simp] theorem bump_busMode (s : State) : (bump s).busMode = s.busMode := rfl
@[simp] theorem bump_busLast (s : State) : (bump s).busLast = s.busLast := rfl
@[simp] theorem bump_params (s : State) : (bump s).params = s.params := rfl
@[simp] theorem bump_script (s : State) : (bump s).script = s.script := rfl

/-! ### memWrite (R53) writes mem only -/

@[simp] theorem memWrite_state (a : Ptr) (v : Byte) (s : State) : (memWrite a v s).state = s.state := rfl
@[simp] theorem memWrite_role (a : Ptr) (v : Byte) (s : State) : (memWrite a v s).role = s.role := rfl
@[simp] theorem memWrite_dev (a : Ptr) (v : Byte) (s : State) : (memWrite a v s).dev = s.dev := rfl
@[simp] theorem memWrite_addr (a : Ptr) (v : Byte) (s : State) : (memWrite a v s).addr = s.addr := rfl
@[simp] theorem memWrite_count (a : Ptr) (v : Byte) (s : State) : (memWrite a v s).count = s.count := rfl
@[simp] theorem memWrite_next (a : Ptr) (v : Byte) (s : State) : (memWrite a v s).next = s.next := rfl
@[simp] theorem memWrite_last (a : Ptr) (v : Byte) (s : State) : (memWrite a v s).last = s.last := rfl
@[simp] theorem memWrite_ix (a : Ptr) (v : Byte) (s : State) : (memWrite a v s).ix = s.ix := rfl
@[simp] theorem memWrite_vec (a : Ptr) (v : Byte) (s : State) : (memWrite a v s).vec = s.vec := rfl
@[simp] theorem memWrite_hdr0 (a : Ptr) (v : Byte) (s : State) : (memWrite a v s).hdr0 = s.hdr0 := rfl
@[simp] theorem memWrite_hdr1 (a : Ptr) (v : Byte) (s : State) : (memWrite a v s).hdr1 = s.hdr1 := rfl
@[simp] theorem memWrite_target (a : Ptr) (v : Byte) (s : State) : (memWrite a v s).target = s.target := rfl
@[simp] theorem memWrite_slvWr (a : Ptr) (v : Byte) (s : State) : (memWrite a v s).slvWr = s.slvWr := rfl
@[simp] theorem memWrite_slvRd (a : Ptr) (v : Byte) (s : State) : (memWrite a v s).slvRd = s.slvRd := rfl
@[simp] theorem memWrite_pue (a : Ptr) (v : Byte) (s : State) : (memWrite a v s).pue = s.pue := rfl
@[simp] theorem memWrite_cr (a : Ptr) (v : Byte) (s : State) : (memWrite a v s).cr = s.cr := rfl
@[simp] theorem memWrite_sr (a : Ptr) (v : Byte) (s : State) : (memWrite a v s).sr = s.sr := rfl
@[simp] theorem memWrite_dr (a : Ptr) (v : Byte) (s : State) : (memWrite a v s).dr = s.dr := rfl
@[simp] theorem memWrite_ar (a : Ptr) (v : Byte) (s : State) : (memWrite a v s).ar = s.ar := rfl
@[simp] theorem memWrite_brr (a : Ptr) (v : Byte) (s : State) : (memWrite a v s).brr = s.brr := rfl
@[simp] theorem memWrite_pending (a : Ptr) (v : Byte) (s : State) : (memWrite a v s).pending = s.pending := rfl
@[simp] theorem memWrite_evq (a : Ptr) (v : Byte) (s : State) : (memWrite a v s).evq = s.evq := rfl
@[simp] theorem memWrite_callbackDue (a : Ptr) (v : Byte) (s : State) : (memWrite a v s).callbackDue = s.callbackDue := rfl
@[simp] theorem memWrite_port (a : Ptr) (v : Byte) (s : State) : (memWrite a v s).port = s.port := rfl
@[simp] theorem memWrite_callPort (a : Ptr) (v : Byte) (s : State) : (memWrite a v s).callPort = s.callPort := rfl
@[simp] theorem memWrite_onRequest (a : Ptr) (v : Byte) (s : State) : (memWrite a v s).onRequest = s.onRequest := rfl
@[simp] theorem memWrite_busMode (a : Ptr) (v : Byte) (s : State) : (memWrite a v s).busMode = s.busMode := rfl
@[simp] theorem memWrite_busLast (a : Ptr) (v : Byte) (s : State) : (memWrite a v s).busLast = s.busLast := rfl
@[simp] theorem memWrite_params (a : Ptr) (v : Byte) (s : State) : (memWrite a v s).params = s.params := rfl
@[simp] theorem memWrite_script (a : Ptr) (v : Byte) (s : State) : (memWrite a v s).script = s.script := rfl

/-! ### loadByte (R175) writes dr, next, count only -/

@[simp] theorem loadByte_state (s : State) : (loadByte s).state = s.state := rfl
@[simp] theorem loadByte_role (s : State) : (loadByte s).role = s.role := rfl
@[simp] theorem loadByte_dev (s : State) : (loadByte s).dev = s.dev := rfl
@[simp] theorem loadByte_addr (s : State) : (loadByte s).addr = s.addr := rfl
@[simp] theorem loadByte_last (s : State) : (loadByte s).last = s.last := rfl
@[simp] theorem loadByte_ix (s : State) : (loadByte s).ix = s.ix := rfl
@[simp] theorem loadByte_vec (s : State) : (loadByte s).vec = s.vec := rfl
@[simp] theorem loadByte_hdr0 (s : State) : (loadByte s).hdr0 = s.hdr0 := rfl
@[simp] theorem loadByte_hdr1 (s : State) : (loadByte s).hdr1 = s.hdr1 := rfl
@[simp] theorem loadByte_target (s : State) : (loadByte s).target = s.target := rfl
@[simp] theorem loadByte_slvWr (s : State) : (loadByte s).slvWr = s.slvWr := rfl
@[simp] theorem loadByte_slvRd (s : State) : (loadByte s).slvRd = s.slvRd := rfl
@[simp] theorem loadByte_pue (s : State) : (loadByte s).pue = s.pue := rfl
@[simp] theorem loadByte_cr (s : State) : (loadByte s).cr = s.cr := rfl
@[simp] theorem loadByte_sr (s : State) : (loadByte s).sr = s.sr := rfl
@[simp] theorem loadByte_ar (s : State) : (loadByte s).ar = s.ar := rfl
@[simp] theorem loadByte_brr (s : State) : (loadByte s).brr = s.brr := rfl
@[simp] theorem loadByte_pending (s : State) : (loadByte s).pending = s.pending := rfl
@[simp] theorem loadByte_evq (s : State) : (loadByte s).evq = s.evq := rfl
@[simp] theorem loadByte_callbackDue (s : State) : (loadByte s).callbackDue = s.callbackDue := rfl
@[simp] theorem loadByte_mem (s : State) : (loadByte s).mem = s.mem := rfl
@[simp] theorem loadByte_port (s : State) : (loadByte s).port = s.port := rfl
@[simp] theorem loadByte_callPort (s : State) : (loadByte s).callPort = s.callPort := rfl
@[simp] theorem loadByte_onRequest (s : State) : (loadByte s).onRequest = s.onRequest := rfl
@[simp] theorem loadByte_busMode (s : State) : (loadByte s).busMode = s.busMode := rfl
@[simp] theorem loadByte_busLast (s : State) : (loadByte s).busLast = s.busLast := rfl
@[simp] theorem loadByte_params (s : State) : (loadByte s).params = s.params := rfl
@[simp] theorem loadByte_script (s : State) : (loadByte s).script = s.script := rfl

/-! ### swapPorts (log entry 14) writes port, callPort only -/

@[simp] theorem swapPorts_state (s : State) : (swapPorts s).state = s.state := rfl
@[simp] theorem swapPorts_role (s : State) : (swapPorts s).role = s.role := rfl
@[simp] theorem swapPorts_dev (s : State) : (swapPorts s).dev = s.dev := rfl
@[simp] theorem swapPorts_addr (s : State) : (swapPorts s).addr = s.addr := rfl
@[simp] theorem swapPorts_count (s : State) : (swapPorts s).count = s.count := rfl
@[simp] theorem swapPorts_next (s : State) : (swapPorts s).next = s.next := rfl
@[simp] theorem swapPorts_last (s : State) : (swapPorts s).last = s.last := rfl
@[simp] theorem swapPorts_ix (s : State) : (swapPorts s).ix = s.ix := rfl
@[simp] theorem swapPorts_vec (s : State) : (swapPorts s).vec = s.vec := rfl
@[simp] theorem swapPorts_hdr0 (s : State) : (swapPorts s).hdr0 = s.hdr0 := rfl
@[simp] theorem swapPorts_hdr1 (s : State) : (swapPorts s).hdr1 = s.hdr1 := rfl
@[simp] theorem swapPorts_target (s : State) : (swapPorts s).target = s.target := rfl
@[simp] theorem swapPorts_slvWr (s : State) : (swapPorts s).slvWr = s.slvWr := rfl
@[simp] theorem swapPorts_slvRd (s : State) : (swapPorts s).slvRd = s.slvRd := rfl
@[simp] theorem swapPorts_pue (s : State) : (swapPorts s).pue = s.pue := rfl
@[simp] theorem swapPorts_cr (s : State) : (swapPorts s).cr = s.cr := rfl
@[simp] theorem swapPorts_sr (s : State) : (swapPorts s).sr = s.sr := rfl
@[simp] theorem swapPorts_dr (s : State) : (swapPorts s).dr = s.dr := rfl
@[simp] theorem swapPorts_ar (s : State) : (swapPorts s).ar = s.ar := rfl
@[simp] theorem swapPorts_brr (s : State) : (swapPorts s).brr = s.brr := rfl
@[simp] theorem swapPorts_pending (s : State) : (swapPorts s).pending = s.pending := rfl
@[simp] theorem swapPorts_evq (s : State) : (swapPorts s).evq = s.evq := rfl
@[simp] theorem swapPorts_callbackDue (s : State) : (swapPorts s).callbackDue = s.callbackDue := rfl
@[simp] theorem swapPorts_mem (s : State) : (swapPorts s).mem = s.mem := rfl
@[simp] theorem swapPorts_onRequest (s : State) : (swapPorts s).onRequest = s.onRequest := rfl
@[simp] theorem swapPorts_busMode (s : State) : (swapPorts s).busMode = s.busMode := rfl
@[simp] theorem swapPorts_busLast (s : State) : (swapPorts s).busLast = s.busLast := rfl
@[simp] theorem swapPorts_params (s : State) : (swapPorts s).params = s.params := rfl
@[simp] theorem swapPorts_script (s : State) : (swapPorts s).script = s.script := rfl

/-! ### push (R260) writes evq only -/

@[simp] theorem push_state (t : EventType) (s : State) : (push t s).state = s.state := by unfold push; split <;> rfl
@[simp] theorem push_role (t : EventType) (s : State) : (push t s).role = s.role := by unfold push; split <;> rfl
@[simp] theorem push_dev (t : EventType) (s : State) : (push t s).dev = s.dev := by unfold push; split <;> rfl
@[simp] theorem push_addr (t : EventType) (s : State) : (push t s).addr = s.addr := by unfold push; split <;> rfl
@[simp] theorem push_count (t : EventType) (s : State) : (push t s).count = s.count := by unfold push; split <;> rfl
@[simp] theorem push_next (t : EventType) (s : State) : (push t s).next = s.next := by unfold push; split <;> rfl
@[simp] theorem push_last (t : EventType) (s : State) : (push t s).last = s.last := by unfold push; split <;> rfl
@[simp] theorem push_ix (t : EventType) (s : State) : (push t s).ix = s.ix := by unfold push; split <;> rfl
@[simp] theorem push_vec (t : EventType) (s : State) : (push t s).vec = s.vec := by unfold push; split <;> rfl
@[simp] theorem push_hdr0 (t : EventType) (s : State) : (push t s).hdr0 = s.hdr0 := by unfold push; split <;> rfl
@[simp] theorem push_hdr1 (t : EventType) (s : State) : (push t s).hdr1 = s.hdr1 := by unfold push; split <;> rfl
@[simp] theorem push_target (t : EventType) (s : State) : (push t s).target = s.target := by unfold push; split <;> rfl
@[simp] theorem push_slvWr (t : EventType) (s : State) : (push t s).slvWr = s.slvWr := by unfold push; split <;> rfl
@[simp] theorem push_slvRd (t : EventType) (s : State) : (push t s).slvRd = s.slvRd := by unfold push; split <;> rfl
@[simp] theorem push_pue (t : EventType) (s : State) : (push t s).pue = s.pue := by unfold push; split <;> rfl
@[simp] theorem push_cr (t : EventType) (s : State) : (push t s).cr = s.cr := by unfold push; split <;> rfl
@[simp] theorem push_sr (t : EventType) (s : State) : (push t s).sr = s.sr := by unfold push; split <;> rfl
@[simp] theorem push_dr (t : EventType) (s : State) : (push t s).dr = s.dr := by unfold push; split <;> rfl
@[simp] theorem push_ar (t : EventType) (s : State) : (push t s).ar = s.ar := by unfold push; split <;> rfl
@[simp] theorem push_brr (t : EventType) (s : State) : (push t s).brr = s.brr := by unfold push; split <;> rfl
@[simp] theorem push_pending (t : EventType) (s : State) : (push t s).pending = s.pending := by unfold push; split <;> rfl
@[simp] theorem push_callbackDue (t : EventType) (s : State) : (push t s).callbackDue = s.callbackDue := by unfold push; split <;> rfl
@[simp] theorem push_mem (t : EventType) (s : State) : (push t s).mem = s.mem := by unfold push; split <;> rfl
@[simp] theorem push_port (t : EventType) (s : State) : (push t s).port = s.port := by unfold push; split <;> rfl
@[simp] theorem push_callPort (t : EventType) (s : State) : (push t s).callPort = s.callPort := by unfold push; split <;> rfl
@[simp] theorem push_onRequest (t : EventType) (s : State) : (push t s).onRequest = s.onRequest := by unfold push; split <;> rfl
@[simp] theorem push_busMode (t : EventType) (s : State) : (push t s).busMode = s.busMode := by unfold push; split <;> rfl
@[simp] theorem push_busLast (t : EventType) (s : State) : (push t s).busLast = s.busLast := by unfold push; split <;> rfl
@[simp] theorem push_params (t : EventType) (s : State) : (push t s).params = s.params := by unfold push; split <;> rfl
@[simp] theorem push_script (t : EventType) (s : State) : (push t s).script = s.script := by unfold push; split <;> rfl

/-! ### storeByte (R180) writes mem, next, count only -/

@[simp] theorem storeByte_state (s : State) : (storeByte s).state = s.state := by unfold storeByte; split <;> rfl
@[simp] theorem storeByte_role (s : State) : (storeByte s).role = s.role := by unfold storeByte; split <;> rfl
@[simp] theorem storeByte_dev (s : State) : (storeByte s).dev = s.dev := by unfold storeByte; split <;> rfl
@[simp] theorem storeByte_addr (s : State) : (storeByte s).addr = s.addr := by unfold storeByte; split <;> rfl
@[simp] theorem storeByte_last (s : State) : (storeByte s).last = s.last := by unfold storeByte; split <;> rfl
@[simp] theorem storeByte_ix (s : State) : (storeByte s).ix = s.ix := by unfold storeByte; split <;> rfl
@[simp] theorem storeByte_vec (s : State) : (storeByte s).vec = s.vec := by unfold storeByte; split <;> rfl
@[simp] theorem storeByte_hdr0 (s : State) : (storeByte s).hdr0 = s.hdr0 := by unfold storeByte; split <;> rfl
@[simp] theorem storeByte_hdr1 (s : State) : (storeByte s).hdr1 = s.hdr1 := by unfold storeByte; split <;> rfl
@[simp] theorem storeByte_target (s : State) : (storeByte s).target = s.target := by unfold storeByte; split <;> rfl
@[simp] theorem storeByte_slvWr (s : State) : (storeByte s).slvWr = s.slvWr := by unfold storeByte; split <;> rfl
@[simp] theorem storeByte_slvRd (s : State) : (storeByte s).slvRd = s.slvRd := by unfold storeByte; split <;> rfl
@[simp] theorem storeByte_pue (s : State) : (storeByte s).pue = s.pue := by unfold storeByte; split <;> rfl
@[simp] theorem storeByte_cr (s : State) : (storeByte s).cr = s.cr := by unfold storeByte; split <;> rfl
@[simp] theorem storeByte_sr (s : State) : (storeByte s).sr = s.sr := by unfold storeByte; split <;> rfl
@[simp] theorem storeByte_dr (s : State) : (storeByte s).dr = s.dr := by unfold storeByte; split <;> rfl
@[simp] theorem storeByte_ar (s : State) : (storeByte s).ar = s.ar := by unfold storeByte; split <;> rfl
@[simp] theorem storeByte_brr (s : State) : (storeByte s).brr = s.brr := by unfold storeByte; split <;> rfl
@[simp] theorem storeByte_pending (s : State) : (storeByte s).pending = s.pending := by unfold storeByte; split <;> rfl
@[simp] theorem storeByte_evq (s : State) : (storeByte s).evq = s.evq := by unfold storeByte; split <;> rfl
@[simp] theorem storeByte_callbackDue (s : State) : (storeByte s).callbackDue = s.callbackDue := by unfold storeByte; split <;> rfl
@[simp] theorem storeByte_port (s : State) : (storeByte s).port = s.port := by unfold storeByte; split <;> rfl
@[simp] theorem storeByte_callPort (s : State) : (storeByte s).callPort = s.callPort := by unfold storeByte; split <;> rfl
@[simp] theorem storeByte_onRequest (s : State) : (storeByte s).onRequest = s.onRequest := by unfold storeByte; split <;> rfl
@[simp] theorem storeByte_busMode (s : State) : (storeByte s).busMode = s.busMode := by unfold storeByte; split <;> rfl
@[simp] theorem storeByte_busLast (s : State) : (storeByte s).busLast = s.busLast := by unfold storeByte; split <;> rfl
@[simp] theorem storeByte_params (s : State) : (storeByte s).params = s.params := by unfold storeByte; split <;> rfl
@[simp] theorem storeByte_script (s : State) : (storeByte s).script = s.script := by unfold storeByte; split <;> rfl

/-! ### stLoad (R219) writes dr, next, count only -/

@[simp] theorem stLoad_state (s : State) : (stLoad s).state = s.state := by unfold stLoad; split <;> rfl
@[simp] theorem stLoad_role (s : State) : (stLoad s).role = s.role := by unfold stLoad; split <;> rfl
@[simp] theorem stLoad_dev (s : State) : (stLoad s).dev = s.dev := by unfold stLoad; split <;> rfl
@[simp] theorem stLoad_addr (s : State) : (stLoad s).addr = s.addr := by unfold stLoad; split <;> rfl
@[simp] theorem stLoad_last (s : State) : (stLoad s).last = s.last := by unfold stLoad; split <;> rfl
@[simp] theorem stLoad_ix (s : State) : (stLoad s).ix = s.ix := by unfold stLoad; split <;> rfl
@[simp] theorem stLoad_vec (s : State) : (stLoad s).vec = s.vec := by unfold stLoad; split <;> rfl
@[simp] theorem stLoad_hdr0 (s : State) : (stLoad s).hdr0 = s.hdr0 := by unfold stLoad; split <;> rfl
@[simp] theorem stLoad_hdr1 (s : State) : (stLoad s).hdr1 = s.hdr1 := by unfold stLoad; split <;> rfl
@[simp] theorem stLoad_target (s : State) : (stLoad s).target = s.target := by unfold stLoad; split <;> rfl
@[simp] theorem stLoad_slvWr (s : State) : (stLoad s).slvWr = s.slvWr := by unfold stLoad; split <;> rfl
@[simp] theorem stLoad_slvRd (s : State) : (stLoad s).slvRd = s.slvRd := by unfold stLoad; split <;> rfl
@[simp] theorem stLoad_pue (s : State) : (stLoad s).pue = s.pue := by unfold stLoad; split <;> rfl
@[simp] theorem stLoad_cr (s : State) : (stLoad s).cr = s.cr := by unfold stLoad; split <;> rfl
@[simp] theorem stLoad_sr (s : State) : (stLoad s).sr = s.sr := by unfold stLoad; split <;> rfl
@[simp] theorem stLoad_ar (s : State) : (stLoad s).ar = s.ar := by unfold stLoad; split <;> rfl
@[simp] theorem stLoad_brr (s : State) : (stLoad s).brr = s.brr := by unfold stLoad; split <;> rfl
@[simp] theorem stLoad_pending (s : State) : (stLoad s).pending = s.pending := by unfold stLoad; split <;> rfl
@[simp] theorem stLoad_evq (s : State) : (stLoad s).evq = s.evq := by unfold stLoad; split <;> rfl
@[simp] theorem stLoad_callbackDue (s : State) : (stLoad s).callbackDue = s.callbackDue := by unfold stLoad; split <;> rfl
@[simp] theorem stLoad_mem (s : State) : (stLoad s).mem = s.mem := by unfold stLoad; split <;> rfl
@[simp] theorem stLoad_port (s : State) : (stLoad s).port = s.port := by unfold stLoad; split <;> rfl
@[simp] theorem stLoad_callPort (s : State) : (stLoad s).callPort = s.callPort := by unfold stLoad; split <;> rfl
@[simp] theorem stLoad_onRequest (s : State) : (stLoad s).onRequest = s.onRequest := by unfold stLoad; split <;> rfl
@[simp] theorem stLoad_busMode (s : State) : (stLoad s).busMode = s.busMode := by unfold stLoad; split <;> rfl
@[simp] theorem stLoad_busLast (s : State) : (stLoad s).busLast = s.busLast := by unfold stLoad; split <;> rfl
@[simp] theorem stLoad_params (s : State) : (stLoad s).params = s.params := by unfold stLoad; split <;> rfl
@[simp] theorem stLoad_script (s : State) : (stLoad s).script = s.script := by unfold stLoad; split <;> rfl

/-! ### slaveLoad (R205) writes next, last, count, state only -/

@[simp] theorem slaveLoad_role (b : Segment) (e : EngineState) (s : State) : (slaveLoad b e s).role = s.role := by unfold slaveLoad; split <;> rfl
@[simp] theorem slaveLoad_dev (b : Segment) (e : EngineState) (s : State) : (slaveLoad b e s).dev = s.dev := by unfold slaveLoad; split <;> rfl
@[simp] theorem slaveLoad_addr (b : Segment) (e : EngineState) (s : State) : (slaveLoad b e s).addr = s.addr := by unfold slaveLoad; split <;> rfl
@[simp] theorem slaveLoad_ix (b : Segment) (e : EngineState) (s : State) : (slaveLoad b e s).ix = s.ix := by unfold slaveLoad; split <;> rfl
@[simp] theorem slaveLoad_vec (b : Segment) (e : EngineState) (s : State) : (slaveLoad b e s).vec = s.vec := by unfold slaveLoad; split <;> rfl
@[simp] theorem slaveLoad_hdr0 (b : Segment) (e : EngineState) (s : State) : (slaveLoad b e s).hdr0 = s.hdr0 := by unfold slaveLoad; split <;> rfl
@[simp] theorem slaveLoad_hdr1 (b : Segment) (e : EngineState) (s : State) : (slaveLoad b e s).hdr1 = s.hdr1 := by unfold slaveLoad; split <;> rfl
@[simp] theorem slaveLoad_target (b : Segment) (e : EngineState) (s : State) : (slaveLoad b e s).target = s.target := by unfold slaveLoad; split <;> rfl
@[simp] theorem slaveLoad_slvWr (b : Segment) (e : EngineState) (s : State) : (slaveLoad b e s).slvWr = s.slvWr := by unfold slaveLoad; split <;> rfl
@[simp] theorem slaveLoad_slvRd (b : Segment) (e : EngineState) (s : State) : (slaveLoad b e s).slvRd = s.slvRd := by unfold slaveLoad; split <;> rfl
@[simp] theorem slaveLoad_pue (b : Segment) (e : EngineState) (s : State) : (slaveLoad b e s).pue = s.pue := by unfold slaveLoad; split <;> rfl
@[simp] theorem slaveLoad_cr (b : Segment) (e : EngineState) (s : State) : (slaveLoad b e s).cr = s.cr := by unfold slaveLoad; split <;> rfl
@[simp] theorem slaveLoad_sr (b : Segment) (e : EngineState) (s : State) : (slaveLoad b e s).sr = s.sr := by unfold slaveLoad; split <;> rfl
@[simp] theorem slaveLoad_dr (b : Segment) (e : EngineState) (s : State) : (slaveLoad b e s).dr = s.dr := by unfold slaveLoad; split <;> rfl
@[simp] theorem slaveLoad_ar (b : Segment) (e : EngineState) (s : State) : (slaveLoad b e s).ar = s.ar := by unfold slaveLoad; split <;> rfl
@[simp] theorem slaveLoad_brr (b : Segment) (e : EngineState) (s : State) : (slaveLoad b e s).brr = s.brr := by unfold slaveLoad; split <;> rfl
@[simp] theorem slaveLoad_pending (b : Segment) (e : EngineState) (s : State) : (slaveLoad b e s).pending = s.pending := by unfold slaveLoad; split <;> rfl
@[simp] theorem slaveLoad_evq (b : Segment) (e : EngineState) (s : State) : (slaveLoad b e s).evq = s.evq := by unfold slaveLoad; split <;> rfl
@[simp] theorem slaveLoad_callbackDue (b : Segment) (e : EngineState) (s : State) : (slaveLoad b e s).callbackDue = s.callbackDue := by unfold slaveLoad; split <;> rfl
@[simp] theorem slaveLoad_mem (b : Segment) (e : EngineState) (s : State) : (slaveLoad b e s).mem = s.mem := by unfold slaveLoad; split <;> rfl
@[simp] theorem slaveLoad_port (b : Segment) (e : EngineState) (s : State) : (slaveLoad b e s).port = s.port := by unfold slaveLoad; split <;> rfl
@[simp] theorem slaveLoad_callPort (b : Segment) (e : EngineState) (s : State) : (slaveLoad b e s).callPort = s.callPort := by unfold slaveLoad; split <;> rfl
@[simp] theorem slaveLoad_onRequest (b : Segment) (e : EngineState) (s : State) : (slaveLoad b e s).onRequest = s.onRequest := by unfold slaveLoad; split <;> rfl
@[simp] theorem slaveLoad_busMode (b : Segment) (e : EngineState) (s : State) : (slaveLoad b e s).busMode = s.busMode := by unfold slaveLoad; split <;> rfl
@[simp] theorem slaveLoad_busLast (b : Segment) (e : EngineState) (s : State) : (slaveLoad b e s).busLast = s.busLast := by unfold slaveLoad; split <;> rfl
@[simp] theorem slaveLoad_params (b : Segment) (e : EngineState) (s : State) : (slaveLoad b e s).params = s.params := by unfold slaveLoad; split <;> rfl
@[simp] theorem slaveLoad_script (b : Segment) (e : EngineState) (s : State) : (slaveLoad b e s).script = s.script := by unfold slaveLoad; split <;> rfl

/-! ### segLoad (R104) writes ix, next, last only -/

@[simp] theorem segLoad_state (i : Fin 5) (s : State) : (segLoad i s).state = s.state := by unfold segLoad; split <;> rfl
@[simp] theorem segLoad_role (i : Fin 5) (s : State) : (segLoad i s).role = s.role := by unfold segLoad; split <;> rfl
@[simp] theorem segLoad_dev (i : Fin 5) (s : State) : (segLoad i s).dev = s.dev := by unfold segLoad; split <;> rfl
@[simp] theorem segLoad_addr (i : Fin 5) (s : State) : (segLoad i s).addr = s.addr := by unfold segLoad; split <;> rfl
@[simp] theorem segLoad_count (i : Fin 5) (s : State) : (segLoad i s).count = s.count := by unfold segLoad; split <;> rfl
@[simp] theorem segLoad_vec (i : Fin 5) (s : State) : (segLoad i s).vec = s.vec := by unfold segLoad; split <;> rfl
@[simp] theorem segLoad_hdr0 (i : Fin 5) (s : State) : (segLoad i s).hdr0 = s.hdr0 := by unfold segLoad; split <;> rfl
@[simp] theorem segLoad_hdr1 (i : Fin 5) (s : State) : (segLoad i s).hdr1 = s.hdr1 := by unfold segLoad; split <;> rfl
@[simp] theorem segLoad_target (i : Fin 5) (s : State) : (segLoad i s).target = s.target := by unfold segLoad; split <;> rfl
@[simp] theorem segLoad_slvWr (i : Fin 5) (s : State) : (segLoad i s).slvWr = s.slvWr := by unfold segLoad; split <;> rfl
@[simp] theorem segLoad_slvRd (i : Fin 5) (s : State) : (segLoad i s).slvRd = s.slvRd := by unfold segLoad; split <;> rfl
@[simp] theorem segLoad_pue (i : Fin 5) (s : State) : (segLoad i s).pue = s.pue := by unfold segLoad; split <;> rfl
@[simp] theorem segLoad_cr (i : Fin 5) (s : State) : (segLoad i s).cr = s.cr := by unfold segLoad; split <;> rfl
@[simp] theorem segLoad_sr (i : Fin 5) (s : State) : (segLoad i s).sr = s.sr := by unfold segLoad; split <;> rfl
@[simp] theorem segLoad_dr (i : Fin 5) (s : State) : (segLoad i s).dr = s.dr := by unfold segLoad; split <;> rfl
@[simp] theorem segLoad_ar (i : Fin 5) (s : State) : (segLoad i s).ar = s.ar := by unfold segLoad; split <;> rfl
@[simp] theorem segLoad_brr (i : Fin 5) (s : State) : (segLoad i s).brr = s.brr := by unfold segLoad; split <;> rfl
@[simp] theorem segLoad_pending (i : Fin 5) (s : State) : (segLoad i s).pending = s.pending := by unfold segLoad; split <;> rfl
@[simp] theorem segLoad_evq (i : Fin 5) (s : State) : (segLoad i s).evq = s.evq := by unfold segLoad; split <;> rfl
@[simp] theorem segLoad_callbackDue (i : Fin 5) (s : State) : (segLoad i s).callbackDue = s.callbackDue := by unfold segLoad; split <;> rfl
@[simp] theorem segLoad_mem (i : Fin 5) (s : State) : (segLoad i s).mem = s.mem := by unfold segLoad; split <;> rfl
@[simp] theorem segLoad_port (i : Fin 5) (s : State) : (segLoad i s).port = s.port := by unfold segLoad; split <;> rfl
@[simp] theorem segLoad_callPort (i : Fin 5) (s : State) : (segLoad i s).callPort = s.callPort := by unfold segLoad; split <;> rfl
@[simp] theorem segLoad_onRequest (i : Fin 5) (s : State) : (segLoad i s).onRequest = s.onRequest := by unfold segLoad; split <;> rfl
@[simp] theorem segLoad_busMode (i : Fin 5) (s : State) : (segLoad i s).busMode = s.busMode := by unfold segLoad; split <;> rfl
@[simp] theorem segLoad_busLast (i : Fin 5) (s : State) : (segLoad i s).busLast = s.busLast := by unfold segLoad; split <;> rfl
@[simp] theorem segLoad_params (i : Fin 5) (s : State) : (segLoad i s).params = s.params := by unfold segLoad; split <;> rfl
@[simp] theorem segLoad_script (i : Fin 5) (s : State) : (segLoad i s).script = s.script := by unfold segLoad; split <;> rfl

/-! ### advance (R106) writes ix, next, last only -/

@[simp] theorem advanceLoop_state (n : Nat) (s : State) : (advanceLoop n s).state = s.state := by
  induction n generalizing s with
  | zero => rfl
  | succ n ih => unfold advanceLoop; split <;> simp [ih]
@[simp] theorem advance_state (s : State) : (advance s).state = s.state := advanceLoop_state 4 s
@[simp] theorem advanceLoop_role (n : Nat) (s : State) : (advanceLoop n s).role = s.role := by
  induction n generalizing s with
  | zero => rfl
  | succ n ih => unfold advanceLoop; split <;> simp [ih]
@[simp] theorem advance_role (s : State) : (advance s).role = s.role := advanceLoop_role 4 s
@[simp] theorem advanceLoop_dev (n : Nat) (s : State) : (advanceLoop n s).dev = s.dev := by
  induction n generalizing s with
  | zero => rfl
  | succ n ih => unfold advanceLoop; split <;> simp [ih]
@[simp] theorem advance_dev (s : State) : (advance s).dev = s.dev := advanceLoop_dev 4 s
@[simp] theorem advanceLoop_addr (n : Nat) (s : State) : (advanceLoop n s).addr = s.addr := by
  induction n generalizing s with
  | zero => rfl
  | succ n ih => unfold advanceLoop; split <;> simp [ih]
@[simp] theorem advance_addr (s : State) : (advance s).addr = s.addr := advanceLoop_addr 4 s
@[simp] theorem advanceLoop_count (n : Nat) (s : State) : (advanceLoop n s).count = s.count := by
  induction n generalizing s with
  | zero => rfl
  | succ n ih => unfold advanceLoop; split <;> simp [ih]
@[simp] theorem advance_count (s : State) : (advance s).count = s.count := advanceLoop_count 4 s
@[simp] theorem advanceLoop_vec (n : Nat) (s : State) : (advanceLoop n s).vec = s.vec := by
  induction n generalizing s with
  | zero => rfl
  | succ n ih => unfold advanceLoop; split <;> simp [ih]
@[simp] theorem advance_vec (s : State) : (advance s).vec = s.vec := advanceLoop_vec 4 s
@[simp] theorem advanceLoop_hdr0 (n : Nat) (s : State) : (advanceLoop n s).hdr0 = s.hdr0 := by
  induction n generalizing s with
  | zero => rfl
  | succ n ih => unfold advanceLoop; split <;> simp [ih]
@[simp] theorem advance_hdr0 (s : State) : (advance s).hdr0 = s.hdr0 := advanceLoop_hdr0 4 s
@[simp] theorem advanceLoop_hdr1 (n : Nat) (s : State) : (advanceLoop n s).hdr1 = s.hdr1 := by
  induction n generalizing s with
  | zero => rfl
  | succ n ih => unfold advanceLoop; split <;> simp [ih]
@[simp] theorem advance_hdr1 (s : State) : (advance s).hdr1 = s.hdr1 := advanceLoop_hdr1 4 s
@[simp] theorem advanceLoop_target (n : Nat) (s : State) : (advanceLoop n s).target = s.target := by
  induction n generalizing s with
  | zero => rfl
  | succ n ih => unfold advanceLoop; split <;> simp [ih]
@[simp] theorem advance_target (s : State) : (advance s).target = s.target := advanceLoop_target 4 s
@[simp] theorem advanceLoop_slvWr (n : Nat) (s : State) : (advanceLoop n s).slvWr = s.slvWr := by
  induction n generalizing s with
  | zero => rfl
  | succ n ih => unfold advanceLoop; split <;> simp [ih]
@[simp] theorem advance_slvWr (s : State) : (advance s).slvWr = s.slvWr := advanceLoop_slvWr 4 s
@[simp] theorem advanceLoop_slvRd (n : Nat) (s : State) : (advanceLoop n s).slvRd = s.slvRd := by
  induction n generalizing s with
  | zero => rfl
  | succ n ih => unfold advanceLoop; split <;> simp [ih]
@[simp] theorem advance_slvRd (s : State) : (advance s).slvRd = s.slvRd := advanceLoop_slvRd 4 s
@[simp] theorem advanceLoop_pue (n : Nat) (s : State) : (advanceLoop n s).pue = s.pue := by
  induction n generalizing s with
  | zero => rfl
  | succ n ih => unfold advanceLoop; split <;> simp [ih]
@[simp] theorem advance_pue (s : State) : (advance s).pue = s.pue := advanceLoop_pue 4 s
@[simp] theorem advanceLoop_cr (n : Nat) (s : State) : (advanceLoop n s).cr = s.cr := by
  induction n generalizing s with
  | zero => rfl
  | succ n ih => unfold advanceLoop; split <;> simp [ih]
@[simp] theorem advance_cr (s : State) : (advance s).cr = s.cr := advanceLoop_cr 4 s
@[simp] theorem advanceLoop_sr (n : Nat) (s : State) : (advanceLoop n s).sr = s.sr := by
  induction n generalizing s with
  | zero => rfl
  | succ n ih => unfold advanceLoop; split <;> simp [ih]
@[simp] theorem advance_sr (s : State) : (advance s).sr = s.sr := advanceLoop_sr 4 s
@[simp] theorem advanceLoop_dr (n : Nat) (s : State) : (advanceLoop n s).dr = s.dr := by
  induction n generalizing s with
  | zero => rfl
  | succ n ih => unfold advanceLoop; split <;> simp [ih]
@[simp] theorem advance_dr (s : State) : (advance s).dr = s.dr := advanceLoop_dr 4 s
@[simp] theorem advanceLoop_ar (n : Nat) (s : State) : (advanceLoop n s).ar = s.ar := by
  induction n generalizing s with
  | zero => rfl
  | succ n ih => unfold advanceLoop; split <;> simp [ih]
@[simp] theorem advance_ar (s : State) : (advance s).ar = s.ar := advanceLoop_ar 4 s
@[simp] theorem advanceLoop_brr (n : Nat) (s : State) : (advanceLoop n s).brr = s.brr := by
  induction n generalizing s with
  | zero => rfl
  | succ n ih => unfold advanceLoop; split <;> simp [ih]
@[simp] theorem advance_brr (s : State) : (advance s).brr = s.brr := advanceLoop_brr 4 s
@[simp] theorem advanceLoop_pending (n : Nat) (s : State) : (advanceLoop n s).pending = s.pending := by
  induction n generalizing s with
  | zero => rfl
  | succ n ih => unfold advanceLoop; split <;> simp [ih]
@[simp] theorem advance_pending (s : State) : (advance s).pending = s.pending := advanceLoop_pending 4 s
@[simp] theorem advanceLoop_evq (n : Nat) (s : State) : (advanceLoop n s).evq = s.evq := by
  induction n generalizing s with
  | zero => rfl
  | succ n ih => unfold advanceLoop; split <;> simp [ih]
@[simp] theorem advance_evq (s : State) : (advance s).evq = s.evq := advanceLoop_evq 4 s
@[simp] theorem advanceLoop_callbackDue (n : Nat) (s : State) : (advanceLoop n s).callbackDue = s.callbackDue := by
  induction n generalizing s with
  | zero => rfl
  | succ n ih => unfold advanceLoop; split <;> simp [ih]
@[simp] theorem advance_callbackDue (s : State) : (advance s).callbackDue = s.callbackDue := advanceLoop_callbackDue 4 s
@[simp] theorem advanceLoop_mem (n : Nat) (s : State) : (advanceLoop n s).mem = s.mem := by
  induction n generalizing s with
  | zero => rfl
  | succ n ih => unfold advanceLoop; split <;> simp [ih]
@[simp] theorem advance_mem (s : State) : (advance s).mem = s.mem := advanceLoop_mem 4 s
@[simp] theorem advanceLoop_port (n : Nat) (s : State) : (advanceLoop n s).port = s.port := by
  induction n generalizing s with
  | zero => rfl
  | succ n ih => unfold advanceLoop; split <;> simp [ih]
@[simp] theorem advance_port (s : State) : (advance s).port = s.port := advanceLoop_port 4 s
@[simp] theorem advanceLoop_callPort (n : Nat) (s : State) : (advanceLoop n s).callPort = s.callPort := by
  induction n generalizing s with
  | zero => rfl
  | succ n ih => unfold advanceLoop; split <;> simp [ih]
@[simp] theorem advance_callPort (s : State) : (advance s).callPort = s.callPort := advanceLoop_callPort 4 s
@[simp] theorem advanceLoop_onRequest (n : Nat) (s : State) : (advanceLoop n s).onRequest = s.onRequest := by
  induction n generalizing s with
  | zero => rfl
  | succ n ih => unfold advanceLoop; split <;> simp [ih]
@[simp] theorem advance_onRequest (s : State) : (advance s).onRequest = s.onRequest := advanceLoop_onRequest 4 s
@[simp] theorem advanceLoop_busMode (n : Nat) (s : State) : (advanceLoop n s).busMode = s.busMode := by
  induction n generalizing s with
  | zero => rfl
  | succ n ih => unfold advanceLoop; split <;> simp [ih]
@[simp] theorem advance_busMode (s : State) : (advance s).busMode = s.busMode := advanceLoop_busMode 4 s
@[simp] theorem advanceLoop_busLast (n : Nat) (s : State) : (advanceLoop n s).busLast = s.busLast := by
  induction n generalizing s with
  | zero => rfl
  | succ n ih => unfold advanceLoop; split <;> simp [ih]
@[simp] theorem advance_busLast (s : State) : (advance s).busLast = s.busLast := advanceLoop_busLast 4 s
@[simp] theorem advanceLoop_params (n : Nat) (s : State) : (advanceLoop n s).params = s.params := by
  induction n generalizing s with
  | zero => rfl
  | succ n ih => unfold advanceLoop; split <;> simp [ih]
@[simp] theorem advance_params (s : State) : (advance s).params = s.params := advanceLoop_params 4 s
@[simp] theorem advanceLoop_script (n : Nat) (s : State) : (advanceLoop n s).script = s.script := by
  induction n generalizing s with
  | zero => rfl
  | succ n ih => unfold advanceLoop; split <;> simp [ih]
@[simp] theorem advance_script (s : State) : (advance s).script = s.script := advanceLoop_script 4 s

/-! ### The fields an operation writes -/

@[simp] theorem crWrite_cr (v : Byte) (s : State) : (crWrite v s).cr = crAfterWrite s.cr v := rfl
@[simp] theorem crWrite_pending (v : Byte) (s : State) : (crWrite v s).pending = pendingAfter s.pending v s.dr := rfl
@[simp] theorem crWrite_busMode (v : Byte) (s : State) : (crWrite v s).busMode = modeAfter s.busMode s.busLast v := rfl
@[simp] theorem crWrite_busLast (v : Byte) (s : State) :
    (crWrite v s).busLast = lastEventAfter s.busMode s.busLast v := rfl
@[simp] theorem respond_port (r : Half) (s : State) : (respond r s).port = .answered (responseWord s.state r) := rfl
@[simp] theorem bump_next (s : State) : (bump s).next = s.next + 1#16 := rfl
@[simp] theorem bump_count (s : State) : (bump s).count = s.count + 1#16 := rfl
@[simp] theorem memWrite_mem (a : Ptr) (v : Byte) (s : State) :
    (memWrite a v s).mem = Memory.write s.mem a.toNat v := rfl
@[simp] theorem loadByte_dr (s : State) : (loadByte s).dr = memRead s.next s := rfl
@[simp] theorem loadByte_next (s : State) : (loadByte s).next = s.next + 1#16 := rfl
@[simp] theorem loadByte_count (s : State) : (loadByte s).count = s.count + 1#16 := rfl
@[simp] theorem swapPorts_port (s : State) : (swapPorts s).port = s.callPort := rfl
@[simp] theorem swapPorts_callPort (s : State) : (swapPorts s).callPort = s.port := rfl
@[simp] theorem slaveLoad_state (b : Segment) (e : EngineState) (s : State) : (slaveLoad b e s).state = e := by
  unfold slaveLoad; split <;> rfl
@[simp] theorem slaveLoad_count (b : Segment) (e : EngineState) (s : State) : (slaveLoad b e s).count = 0#16 := by
  unfold slaveLoad; split <;> rfl
@[simp] theorem segLoad_ix (i : Fin 5) (s : State) : (segLoad i s).ix = i := by
  unfold segLoad; split <;> rfl

/-- R260: what `push` appends. -/
theorem push_evq (t : EventType) (s : State) :
    (push t s).evq = if s.target = 0#16 then s.evq else s.evq ++ [⟨t, s.target, s.count⟩] := by
  unfold push; split <;> rfl

end Sys2Proof.Machine
end

