-- ==== Sys2Proof/Laws/Memory.lean ====
section
/-! SUPPORT. The laws of the data space: a read after a write, every other address unchanged, and the canonical
form kept by every operation (R50, R52, R53). -/

namespace Sys2Proof.Machine

/-- A read after a write to the same address gives the byte written. -/
@[simp] theorem Memory_read_write_same (m : Memory) (a : Nat) (v : Byte) :
    Memory.read (Memory.write m a v) a = some v := by
  induction m with
  | nil => simp [Memory.write, Memory.read]
  | cons c rest ih =>
    obtain ⟨k, b⟩ := c
    unfold Memory.write
    split
    · simp [Memory.read]
    · split
      · simp [Memory.read]
      · have : k ≠ a := fun h => by subst h; contradiction
        simp [Memory.read, this, ih]

/-- A write leaves every other address as it was. -/
theorem Memory_read_write_other (m : Memory) (a b : Nat) (v : Byte) (h : b ≠ a) :
    Memory.read (Memory.write m a v) b = Memory.read m b := by
  induction m with
  | nil => simp [Memory.write, Memory.read, Ne.symm h]
  | cons c rest ih =>
    obtain ⟨k, w⟩ := c
    unfold Memory.write
    split
    · simp [Memory.read, Ne.symm h]
    · split
      · subst a; simp [Memory.read, Ne.symm h]
      · simp [Memory.read, ih]

/-- Lowering the bound keeps the rising form. -/
theorem Memory_risingFrom_mono (m : Memory) (lo lo' : Nat) (h : lo' ≤ lo) (hm : Memory.risingFrom m lo = true) :
    Memory.risingFrom m lo' = true := by
  cases m with
  | nil => rfl
  | cons c rest =>
    simp only [Memory.risingFrom, Bool.and_eq_true, decide_eq_true_eq] at hm ⊢
    exact ⟨⟨by omega, hm.1.2⟩, hm.2⟩

theorem Memory_risingFrom_write (m : Memory) (lo a : Nat) (v : Byte) (hlo : lo ≤ a) (ha : a < 65536)
    (hm : Memory.risingFrom m lo = true) : Memory.risingFrom (Memory.write m a v) lo = true := by
  induction m generalizing lo with
  | nil => simp [Memory.write, Memory.risingFrom, hlo, ha]
  | cons c rest ih =>
    obtain ⟨k, w⟩ := c
    simp only [Memory.risingFrom, Bool.and_eq_true, decide_eq_true_eq] at hm
    unfold Memory.write
    split
    · simp only [Memory.risingFrom, Bool.and_eq_true, decide_eq_true_eq]
      exact ⟨⟨hlo, ha⟩, ⟨by omega, hm.1.2⟩, hm.2⟩
    · split
      · subst a
        simp only [Memory.risingFrom, Bool.and_eq_true, decide_eq_true_eq]
        exact ⟨hm.1, hm.2⟩
      · simp only [Memory.risingFrom, Bool.and_eq_true, decide_eq_true_eq]
        exact ⟨hm.1, ih (k + 1) (by omega) hm.2⟩

/-- A store keeps the canonical form. -/
theorem Memory_wf_write (m : Memory) (a : Ptr) (v : Byte) (hm : Memory.wf m = true) :
    Memory.wf (Memory.write m a.toNat v) = true :=
  Memory_risingFrom_write m 0 a.toNat v (Nat.zero_le _) a.isLt hm

/-- The memory of the state after reset has the canonical form. -/
theorem reset_memory_wf : Memory.wf State.reset.mem = true := rfl

/-- An address below the first listed one is not listed. -/
theorem Memory_read_below (m : Memory) (lo a : Nat) (hm : Memory.risingFrom m lo = true) (ha : a < lo) :
    Memory.read m a = none := by
  induction m generalizing lo with
  | nil => rfl
  | cons c rest ih =>
    obtain ⟨k, w⟩ := c
    simp only [Memory.risingFrom, Bool.and_eq_true, decide_eq_true_eq] at hm
    have : k ≠ a := by omega
    simp only [Memory.read, this, if_false]
    exact ih (k + 1) hm.2 (by omega)

/-- In canonical form equal contents are equal data. -/
theorem Memory_ext (m n : Memory) (lo : Nat) (hm : Memory.risingFrom m lo = true) (hn : Memory.risingFrom n lo = true)
    (h : ∀ a, Memory.read m a = Memory.read n a) : m = n := by
  induction m generalizing n lo with
  | nil =>
    cases n with
    | nil => rfl
    | cons c rest => have := h c.1; simp [Memory.read] at this
  | cons c rest ih =>
    obtain ⟨k, w⟩ := c
    cases n with
    | nil => have := h k; simp [Memory.read] at this
    | cons d rest' =>
      obtain ⟨k', w'⟩ := d
      simp only [Memory.risingFrom, Bool.and_eq_true, decide_eq_true_eq] at hm hn
      have hk : k = k' := by
        rcases Nat.lt_trichotomy k k' with hlt | heq | hgt
        · have := h k
          have hb := Memory_read_below rest' (k' + 1) k hn.2 (by omega)
          simp [Memory.read, Nat.ne_of_gt hlt, hb] at this
        · exact heq
        · have := h k'
          have hb := Memory_read_below rest (k + 1) k' hm.2 (by omega)
          simp [Memory.read, Nat.ne_of_gt hgt, hb] at this
      subst hk
      have hw : w = w' := by have := h k; simpa [Memory.read] using this
      subst hw
      have : rest = rest' := ih rest' (k + 1) hm.2 hn.2 (fun a => by
        by_cases hak : k = a
        · subst hak
          rw [Memory_read_below rest (k + 1) k hm.2 (by omega), Memory_read_below rest' (k + 1) k hn.2 (by omega)]
        · have := h a; simpa [Memory.read, hak] using this)
      rw [this]

/-- The data-space byte at the address just stored to. -/
@[simp] theorem dataByte_memWrite_same (a : Ptr) (v : Byte) (s : State) : (memWrite a v s).dataByte a = v := by
  simp [State.dataByte]

/-- Every other data-space byte is unchanged by a store. -/
theorem dataByte_memWrite_other (a b : Ptr) (v : Byte) (s : State) (h : b ≠ a) :
    (memWrite a v s).dataByte b = s.dataByte b := by
  have : b.toNat ≠ a.toNat := fun e => h (BitVec.eq_of_toNat_eq e)
  simp [State.dataByte, Memory_read_write_other _ _ _ _ this]

/-- The data-space byte depends on the data space alone. -/
theorem dataByte_congr (s t : State) (a : Ptr) (h : t.mem = s.mem) : t.dataByte a = s.dataByte a := by
  simp [State.dataByte, h]

end Sys2Proof.Machine
end

