-- ==== Sys2Proof/Laws/Ops.lean ====
section
/-! SUPPORT. One lemma for each shared operation that says what it can do, for the provers to cite instead of unfolding
it (R31, R104 to R106, R108, R143, R170, R171, R180, R205, R215, R219, R230, R236). -/

namespace Sys2Proof.Machine

/-! ### Control writes (R31, R84) -/

/-- CR after a command with bit 7 set is a constant: INT is cleared whatever it was. -/
@[simp] theorem crAfterWrite_start (cr : Byte) : crAfterWrite cr startCmd = 0x65#8 := by revert cr; decide
@[simp] theorem crAfterWrite_data (cr : Byte) : crAfterWrite cr dataCmd = 0x05#8 := by revert cr; decide
@[simp] theorem crAfterWrite_ack (cr : Byte) : crAfterWrite cr ackCmd = 0x45#8 := by revert cr; decide
@[simp] theorem crAfterWrite_nack (cr : Byte) : crAfterWrite cr nackCmd = 0x05#8 := by revert cr; decide
@[simp] theorem crAfterWrite_stop (cr : Byte) : crAfterWrite cr stopCmd = 0x55#8 := by revert cr; decide
@[simp] theorem crAfterWrite_release (cr : Byte) : crAfterWrite cr releaseCmd = 0x45#8 := by revert cr; decide
@[simp] theorem crAfterWrite_off (cr : Byte) : crAfterWrite cr offCmd = cr &&& 0x80#8 := by revert cr; decide
@[simp] theorem crAfterWrite_idle (cr : Byte) : crAfterWrite cr idleCmd = (cr &&& 0x80#8) ||| 0x45#8 := by
  revert cr; decide

theorem masterAck_cases (r : Half) : masterAck r = ackCmd ∧ 2 ≤ r.toNat ∨ masterAck r = nackCmd ∧ r.toNat < 2 := by
  unfold masterAck; split
  · exact .inl ⟨rfl, ‹_›⟩
  · exact .inr ⟨rfl, by omega⟩

theorem slaveAck_cases (r : Half) : slaveAck r = ackCmd ∧ 1 ≤ r.toNat ∨ slaveAck r = nackCmd ∧ r.toNat = 0 := by
  unfold slaveAck; split
  · exact .inl ⟨rfl, ‹_›⟩
  · exact .inr ⟨rfl, by omega⟩

@[simp] theorem pendingAfter_start (p : Option BusCommand) (d : Byte) : pendingAfter p startCmd d = some ⟨startCmd, d⟩ := rfl
@[simp] theorem pendingAfter_data (p : Option BusCommand) (d : Byte) : pendingAfter p dataCmd d = some ⟨dataCmd, d⟩ := rfl
@[simp] theorem pendingAfter_ack (p : Option BusCommand) (d : Byte) : pendingAfter p ackCmd d = some ⟨ackCmd, d⟩ := rfl
@[simp] theorem pendingAfter_nack (p : Option BusCommand) (d : Byte) : pendingAfter p nackCmd d = some ⟨nackCmd, d⟩ := rfl
@[simp] theorem pendingAfter_stop (p : Option BusCommand) (d : Byte) : pendingAfter p stopCmd d = some ⟨stopCmd, d⟩ := rfl
@[simp] theorem pendingAfter_release (p : Option BusCommand) (d : Byte) :
    pendingAfter p releaseCmd d = some ⟨releaseCmd, d⟩ := rfl
@[simp] theorem pendingAfter_off (p : Option BusCommand) (d : Byte) : pendingAfter p offCmd d = some ⟨offCmd, d⟩ := rfl
@[simp] theorem pendingAfter_idle (p : Option BusCommand) (d : Byte) : pendingAfter p idleCmd d = p := rfl

@[simp] theorem modeAfter_off (m : BusMode) (l : Option Condition) : modeAfter m l offCmd = .off := rfl
@[simp] theorem modeAfter_idle (m : BusMode) (l : Option Condition) :
    modeAfter m l idleCmd = if m = .off then .free else m := rfl
@[simp] theorem modeAfter_start (m : BusMode) (l : Option Condition) : modeAfter m l startCmd = .mStart := rfl
@[simp] theorem modeAfter_stop (m : BusMode) (l : Option Condition) : modeAfter m l stopCmd = .free := rfl
@[simp] theorem modeAfter_ack (m : BusMode) (l : Option Condition) : modeAfter m l ackCmd = (byteMode l).getD .free := rfl
@[simp] theorem modeAfter_release (m : BusMode) (l : Option Condition) :
    modeAfter m l releaseCmd = (byteMode l).getD .free := rfl

/-- The status field and the condition it names do not depend on the prescaler (R78, R120). -/
@[simp] theorem decodeCondition_srWithPrescale (sr : Byte) (ps : BitVec 2) :
    decodeCondition (srWithPrescale sr ps) = decodeCondition sr := by
  have h : ∀ ps : BitVec 2, ∀ sr : BitVec 8, statusCode (srWithPrescale sr ps) = statusCode sr := by decide
  simp [decodeCondition, h]

/-- A delivered code is what SR then decodes to (R230). -/
@[simp] theorem decodeCondition_srWithStatus (sr code : Byte) :
    decodeCondition (srWithStatus sr code) = decodeCondition code := by
  have h : statusCode (srWithStatus sr code) = statusCode code := by
    unfold statusCode srWithStatus
    congr 1
    apply BitVec.eq_of_getLsbD_eq
    intro i hi
    have h1 : ∀ i : Fin 5, (0xF8#8).getLsbD (3 + i) = true ∧ (0x07#8).getLsbD (3 + i) = false := by decide
    have h2 := h1 ⟨i, hi⟩
    simp only at h2
    simp only [BitVec.getLsbD_extractLsb', hi, decide_true, Bool.true_and, BitVec.getLsbD_or, BitVec.getLsbD_and, h2.1,
      h2.2, Bool.and_true, Bool.and_false, Bool.or_false]
  simp [decodeCondition, h]

/-- R32, R242: what SR reads as. -/
theorem srValue_of_int (s : State) (h : s.int = true) : s.srValue = s.sr := by simp [State.srValue, h]

/-- R242: while INT is 0 SR reads NO_INFO. -/
theorem decodeCondition_srValue_of_clear (s : State) (h : s.int = false) : decodeCondition s.srValue = .noInfo := by
  simp only [State.srValue, h, Bool.false_eq_true, if_false, decodeCondition_srWithStatus]
  decide

/-- R257: an enabled event step sees the status that waits. -/
theorem srValue_of_enabled (s : State) (h : s.eventEnabled = true) : s.srValue = s.sr := by
  apply srValue_of_int
  simp only [State.eventEnabled, Bool.and_eq_true] at h
  exact h.1.1

/-! ### The header window (R6, R54) -/

theorem hdrAddr_ne_zero (p : Params) : p.hdrAddr ≠ 0#16 := by
  have h := p.headerOk
  simp only [headerAddressOk, Bool.and_eq_true, bne_iff_ne] at h
  exact h.1

theorem hdrAddr_succ_ne_zero (p : Params) : p.hdrAddr + 1#16 ≠ 0#16 := by
  have h := p.headerOk
  simp only [headerAddressOk, Bool.and_eq_true, bne_iff_ne] at h
  intro hc
  apply h.2
  have := congrArg (· - 1#16) hc
  simpa using this

/-! ### The sequencer (R104 to R106, R109) -/

/-- R109: slot 4 is a sentinel whatever it holds. -/
@[simp] theorem atSentinel_four (v : Descriptor) : atSentinel v 4 = true := by simp [atSentinel]

/-- R105: after `seg_load` of a sentinel nothing is left. -/
theorem segLoad_sentinel_rem (i : Fin 5) (s : State) (h : atSentinel s.vec i = true) : (segLoad i s).rem = 0#16 := by
  simp [segLoad, h, State.rem]

/-- R105: after `seg_load` of a segment its whole length is left. -/
theorem segLoad_segment_rem (i : Fin 5) (s : State) (h : atSentinel s.vec i = false) :
    (segLoad i s).rem = (s.vec.slot i).len := by
  simp only [segLoad, h, State.rem, Bool.false_eq_true, if_false]
  exact BitVec.eq_of_toNat_eq (by rw [BitVec.toNat_sub, BitVec.toNat_add]; omega)

/-- The loop of `advance()` with enough iterations ends at a byte or at a sentinel. -/
theorem advanceLoop_spec (n : Nat) (s : State) (h : 4 ≤ s.ix.val + n) :
    (advanceLoop n s).rem ≠ 0#16 ∨
      ((advanceLoop n s).rem = 0#16 ∧ atSentinel (advanceLoop n s).vec (advanceLoop n s).ix = true) := by
  induction n generalizing s with
  | zero =>
    have : s.ix = 4 := by apply Fin.ext; have := s.ix.isLt; simp; omega
    simp only [advanceLoop, this, atSentinel_four, and_true]
    exact (Decidable.em _).symm
  | succ n ih =>
    unfold advanceLoop
    split
    · rename_i hc
      apply ih
      have h4 : s.ix ≠ 4 := by intro h4; have := hc.2; rw [h4, atSentinel_four] at this; cases this
      have hlt : s.ix.val < 4 := by
        have := s.ix.isLt
        rcases Nat.lt_or_ge s.ix.val 4 with h | h
        · exact h
        · exact absurd (Fin.ext (by simp; omega)) h4
      rw [segLoad_ix, Fin.val_add_one_of_lt (by exact Fin.lt_def.mpr (by simp [Fin.last]; omega))]
      omega
    · rename_i hc
      by_cases hr : s.rem = 0#16
      · right
        refine ⟨hr, ?_⟩
        cases hs : atSentinel s.vec s.ix
        · exact absurd ⟨hr, hs⟩ hc
        · rfl
      · exact .inl hr

/-- R106: a transfer that has bytes left in the active segment does not move. -/
theorem advance_of_rem (s : State) (h : s.rem ≠ 0#16) : advance s = s := by
  unfold advance; unfold advanceLoop; simp [h]

/-- R106: at a sentinel with nothing left the cursor does not move. -/
theorem advance_of_sentinel (s : State) (h : atSentinel s.vec s.ix = true) : advance s = s := by
  unfold advance; unfold advanceLoop; simp [h]

/-! ### The guarded store (R180, R181, R210) -/

theorem storeByte_of_room (s : State) (h : s.rem ≠ 0#16) : storeByte s = bump (memWrite s.next s.dr s) := by
  simp [storeByte, h]

theorem storeByte_of_full (s : State) (h : s.rem = 0#16) : storeByte s = s := by simp [storeByte, h]

/-- The bytes left after a byte has moved. -/
theorem rem_bump (s : State) : (bump s).rem = s.rem - 1#16 := by
  simp only [State.rem, bump]
  exact BitVec.eq_of_toNat_eq (by simp only [BitVec.toNat_sub, BitVec.toNat_add]; omega)

@[simp] theorem rem_memWrite (a : Ptr) (v : Byte) (s : State) : (memWrite a v s).rem = s.rem := rfl
@[simp] theorem rem_crWrite (v : Byte) (s : State) : (crWrite v s).rem = s.rem := rfl
@[simp] theorem rem_loadByte (s : State) : (loadByte s).rem = s.rem - 1#16 := rem_bump _

theorem rem_storeByte_of_room (s : State) (h : s.rem ≠ 0#16) : (storeByte s).rem = s.rem - 1#16 := by
  rw [storeByte_of_room s h, rem_bump, rem_memWrite]

theorem toNat_sub_one (r : Half) (h : r ≠ 0#16) : (r - 1#16).toNat = r.toNat - 1 := by
  have : r.toNat ≠ 0 := fun e => h (BitVec.eq_of_toNat_eq (by simpa using e))
  have := r.isLt
  rw [BitVec.toNat_sub]
  simp
  omega

/-- R53: the store's data-space bytes. -/
theorem dataByte_storeByte (s : State) (a : Ptr) :
    (storeByte s).dataByte a = if s.rem ≠ 0#16 ∧ a = s.next then s.dr else s.dataByte a := by
  by_cases h : s.rem = 0#16
  · simp [storeByte_of_full s h, h]
  · rw [storeByte_of_room s h]
    have hb : (bump (memWrite s.next s.dr s)).dataByte a = (memWrite s.next s.dr s).dataByte a := rfl
    rw [hb]
    by_cases ha : a = s.next
    · subst ha; simp [h]
    · simp [ha, dataByte_memWrite_other _ _ _ _ ha]

/-- The store keeps the canonical form. -/
theorem storeByte_memory_wf (s : State) (h : Memory.wf s.mem = true) : Memory.wf (storeByte s).mem = true := by
  by_cases hr : s.rem = 0#16
  · rwa [storeByte_of_full s hr]
  · rw [storeByte_of_room s hr]
    exact Memory_wf_write _ _ _ h

/-! ### Outcomes -/

/-- Every instruction answers a next state (R170, R253: no fault, no refusal). -/
theorem exec_next (i : Instr) (s : State) : ∃ t, exec i s = .next t := by
  cases i <;>
    simp only [exec, execBegin, execSbegin, execEnd, execAwait, execRreq, execSetrb, execSetwb, execRearm] <;>
    (repeat' split) <;> exact ⟨_, rfl⟩

end Sys2Proof.Machine
end

