-- ==== Sys2Proof/Laws/PerInstr.lean ====
section
/-! SUPPORT. Statements about every instruction, made per instruction. RoundTrip: the decoder reads back every well-formed
instruction from the code the encoder gives it (R71 to R75, R121). -/

namespace Sys2Proof.Laws.RoundTrip

/-- Decoding the encoded instruction gives it back. -/
def Statement (i : Instr) : Prop := i.wellFormed = true → decode (encode i) = .ok i

theorem beginCmd (a8 : Byte) (target : Half) : Statement (.beginCmd a8 target) := fun h => by
  simp only [Instr.wellFormed, Bool.not_eq_true'] at h
  simp [decode, encode, decodeCommand, h]
theorem sbegin (a8 : Byte) (target : Half) : Statement (.sbegin a8 target) := fun h => by
  simp only [Instr.wellFormed, Bool.not_eq_true'] at h
  simp [decode, encode, decodeCommand, h]
theorem endCmd : Statement .endCmd := fun _ => by simp [decode, encode, decodeCommand]
theorem wreq (buf : Ptr) (size : Half) : Statement (.wreq buf size) := fun _ => by simp [decode, encode, decodeCommand]
theorem wreq1 (header : Byte) (buf : Ptr) (size : Half) : Statement (.wreq1 header buf size) := fun _ => by simp [decode, encode, decodeCommand]
theorem wreq2 (header : Half) (buf : Ptr) (size : Half) : Statement (.wreq2 header buf size) := fun _ => by simp [decode, encode, decodeCommand]
theorem rreq (buf : Ptr) (size : Half) : Statement (.rreq buf size) := fun _ => by simp [decode, encode, decodeCommand]
theorem awaitCmd (sleepMode : Byte) : Statement (.awaitCmd sleepMode) := fun _ => by simp [decode, encode, decodeCommand]
theorem poll : Statement .poll := fun _ => by simp [decode, encode, decodeCommand]
theorem setrb (buf : Ptr) (size : Half) : Statement (.setrb buf size) := fun _ => by simp [decode, encode, decodeCommand]
theorem setwb (buf : Ptr) (size : Half) : Statement (.setwb buf size) := fun _ => by simp [decode, encode, decodeCommand]
theorem rearm : Statement .rearm := fun _ => by simp [decode, encode, decodeCommand]
theorem busError : Statement .busError := fun _ => rfl
theorem start : Statement .start := fun _ => rfl
theorem repStart : Statement .repStart := fun _ => rfl
theorem mtSlaAck : Statement .mtSlaAck := fun _ => rfl
theorem mtSlaNack : Statement .mtSlaNack := fun _ => rfl
theorem mtDataAck : Statement .mtDataAck := fun _ => rfl
theorem mtDataNack : Statement .mtDataNack := fun _ => rfl
theorem arbLost : Statement .arbLost := fun _ => rfl
theorem mrSlaAck : Statement .mrSlaAck := fun _ => rfl
theorem mrSlaNack : Statement .mrSlaNack := fun _ => rfl
theorem mrDataAck : Statement .mrDataAck := fun _ => rfl
theorem mrDataNack : Statement .mrDataNack := fun _ => rfl
theorem srSlaAck : Statement .srSlaAck := fun _ => rfl
theorem srArbLostSlaAck : Statement .srArbLostSlaAck := fun _ => rfl
theorem srGcallAck : Statement .srGcallAck := fun _ => rfl
theorem srArbLostGcallAck : Statement .srArbLostGcallAck := fun _ => rfl
theorem srDataAck : Statement .srDataAck := fun _ => rfl
theorem srDataNack : Statement .srDataNack := fun _ => rfl
theorem srGcallDataAck : Statement .srGcallDataAck := fun _ => rfl
theorem srGcallDataNack : Statement .srGcallDataNack := fun _ => rfl
theorem srStop : Statement .srStop := fun _ => rfl
theorem stSlaAck : Statement .stSlaAck := fun _ => rfl
theorem stArbLostSlaAck : Statement .stArbLostSlaAck := fun _ => rfl
theorem stDataAck : Statement .stDataAck := fun _ => rfl
theorem stDataNack : Statement .stDataNack := fun _ => rfl
theorem stLastData : Statement .stLastData := fun _ => rfl
theorem unmappedD0 : Statement .unmappedD0 := fun _ => rfl
theorem unmappedD8 : Statement .unmappedD8 := fun _ => rfl
theorem unmappedE0 : Statement .unmappedE0 := fun _ => rfl
theorem unmappedE8 : Statement .unmappedE8 := fun _ => rfl
theorem unmappedF0 : Statement .unmappedF0 := fun _ => rfl
theorem noInfo : Statement .noInfo := fun _ => rfl

end Sys2Proof.Laws.RoundTrip
end

