-- ==== Sys2Proof/Laws/Reactions.lean ====
section
/-! SUPPORT. What the shared bodies of the reactions can do, said once: the control values they write, the record they may
push, the data space they leave, the field lemmas of the command bodies (R141, R143), and the commands of the call-back (R222). -/

namespace Sys2Proof.Machine

/-! ### Control writes of the acknowledge decisions -/

/-- The two values CR can have after a master's decision (R179). -/
theorem crAfterWrite_masterAck (r : Half) (cr : Byte) :
    crAfterWrite cr (masterAck r) = 0x05#8 ∨ crAfterWrite cr (masterAck r) = 0x45#8 := by
  rcases masterAck_cases r with h | h <;> simp [h]

/-- The two values CR can have after a slave's decision (R206). -/
theorem crAfterWrite_slaveAck (r : Half) (cr : Byte) :
    crAfterWrite cr (slaveAck r) = 0x05#8 ∨ crAfterWrite cr (slaveAck r) = 0x45#8 := by
  rcases slaveAck_cases r with h | h <;> simp [h]

/-- IDLE_CMD keeps INT, sets EN and IE, keeps the bits that read 0 (R31). -/
theorem crAfterWrite_idle_bits (cr : Byte) :
    (crAfterWrite cr idleCmd).getLsbD 7 = cr.getLsbD 7 ∧ (crAfterWrite cr idleCmd).getLsbD 2 = true ∧
    (crAfterWrite cr idleCmd).getLsbD 0 = true ∧ crAfterWrite cr idleCmd &&& 0x0A#8 = 0#8 := by
  revert cr; decide

/-- OFF_CMD keeps INT, clears EN and IE, keeps the bits that read 0 (R31). -/
theorem crAfterWrite_off_bits (cr : Byte) :
    (crAfterWrite cr offCmd).getLsbD 7 = cr.getLsbD 7 ∧ (crAfterWrite cr offCmd).getLsbD 2 = false ∧
    (crAfterWrite cr offCmd).getLsbD 0 = false ∧ crAfterWrite cr offCmd &&& 0x0A#8 = 0#8 := by
  revert cr; decide

/-- A delivery sets INT and no other bit of CR (R230). -/
theorem crWithInt_bits (cr : Byte) :
    (crWithInt cr).getLsbD 7 = true ∧ (crWithInt cr).getLsbD 2 = cr.getLsbD 2 ∧
    (crWithInt cr).getLsbD 0 = cr.getLsbD 0 ∧ crWithInt cr &&& 0x0A#8 = cr &&& 0x0A#8 := by
  revert cr; decide

/-- Finishing a STOP clears STO and no other bit of CR (R236). -/
theorem crWithoutSto_bits (cr : Byte) :
    (crWithoutSto cr).getLsbD 7 = cr.getLsbD 7 ∧ (crWithoutSto cr).getLsbD 2 = cr.getLsbD 2 ∧
    (crWithoutSto cr).getLsbD 0 = cr.getLsbD 0 ∧ crWithoutSto cr &&& 0x0A#8 = cr &&& 0x0A#8 := by
  revert cr; decide

/-! ### Counts -/

theorem storeByte_count (s : State) :
    (storeByte s).count = if s.rem = 0#16 then s.count else s.count + 1#16 := by
  unfold storeByte; split <;> simp

theorem storeByte_next (s : State) : (storeByte s).next = if s.rem = 0#16 then s.next else s.next + 1#16 := by
  unfold storeByte; split <;> simp

theorem stLoad_count (s : State) : (stLoad s).count = if s.rem = 0#16 then s.count else s.count + 1#16 := by
  unfold stLoad; split <;> simp

theorem stLoad_dr (s : State) : (stLoad s).dr = if s.rem = 0#16 then 0xFF#8 else memRead s.next s := by
  unfold stLoad; split <;> simp

/-- `rem` is 0 exactly when the cursor has met its end (R105). -/
theorem rem_eq_zero_iff (s : State) : s.rem = 0#16 ↔ s.next = s.last := by
  constructor
  · intro h
    simp only [State.rem] at h
    have h2 := congrArg (· + s.next) h
    simp only [BitVec.sub_add_cancel, BitVec.zero_add] at h2
    exact h2.symm
  · intro h; simp [State.rem, h]

/-- `slave_write_done()` as one record (R215). -/
theorem slaveWriteDone_eq (s : State) :
    slaveWriteDone s =
      { push .writeCompleted { crWrite releaseCmd { s with ar := 0#8 } with state := .idle } with
        callbackDue := if s.target = 0#16 then s.callbackDue else true } := by
  simp only [slaveWriteDone, push_target, crWrite_target]
  split <;> simp [push, *]

/-! ### What a reaction can do -/

/-- The writes of a reaction that the invariants speak of: CR after its control write, the data space, the record it may
push, CALLBACK_DUE and STATE. -/
structure Reaction (s t : State) : Prop where
  control : t = s ∨ t.cr = 0x05#8 ∨ t.cr = 0x45#8 ∨ t.cr = 0x55#8
  memory : Memory.wf s.mem = true → Memory.wf t.mem = true
  record : t.evq = s.evq ∨
    s.target ≠ 0#16 ∧ ∃ e v, t.evq = s.evq ++ [⟨e, s.target, v⟩] ∧ (e = .error → v = 0xFFFF#16)
  callback : t.callbackDue = s.callbackDue ∨ t.callbackDue = true ∧ s.target ≠ 0#16
  state : t.state = s.state ∨ t.state = .idle ∨ t.state = .error ∨ t.state = .sr ∨ t.state = .st

/-- A push appends nothing, or one record for the target (R260). -/
theorem push_record (e : EventType) (u : State) (evq : List EventRecord) (g : Half) (hq : u.evq = evq) (hg : u.target = g)
    (he : e = .error → u.count = 0xFFFF#16) :
    (push e u).evq = evq ∨
      g ≠ 0#16 ∧ ∃ e' v, (push e u).evq = evq ++ [⟨e', g, v⟩] ∧ (e' = .error → v = 0xFFFF#16) := by
  rw [push_evq]
  subst hq hg
  split
  · exact .inl rfl
  · exact .inr ⟨‹_›, e, u.count, rfl, he⟩

theorem sendAddress_reaction (s : State) : Reaction s (sendAddress s) :=
  ⟨.inr (.inl (by simp [sendAddress])), by simp [sendAddress], .inl (by simp [sendAddress]), .inl (by simp [sendAddress]),
    .inl (by simp [sendAddress])⟩

theorem stop_reaction (s u : State) (e : EngineState) (ty : EventType) (hs : e = .idle ∨ e = .error)
    (hw : Memory.wf s.mem = true → Memory.wf u.mem = true) (hq : u.evq = s.evq) (hg : u.target = s.target)
    (hc : u.callbackDue = s.callbackDue) (he : ty = .error → u.count = 0xFFFF#16) : Reaction s (stop e ty u) := by
  refine ⟨.inr (.inr (.inr (by simp [stop]))), by simpa [stop] using hw, ?_, .inl (by simpa [stop] using hc), .inr ?_⟩
  · exact push_record _ _ _ _ (by simp [hq]) (by simp [hg]) (by simpa using he)
  · rcases hs with rfl | rfl <;> simp [stop]

theorem failWithStop_reaction (s : State) : Reaction s (failWithStop s) :=
  stop_reaction _ _ _ _ (.inr rfl) (by simp) rfl rfl rfl (by simp [minusOne])

theorem mtNext_reaction (s : State) : Reaction s (mtNext s) := by
  unfold mtNext mtSend
  split
  · exact stop_reaction _ _ _ _ (.inl rfl) (by simp) (by simp) (by simp) (by simp) (by simp)
  · exact ⟨.inr (.inl (by simp)), by simp, .inl (by simp), .inl (by simp), .inl (by simp)⟩

theorem mrDecide_reaction (s : State) : Reaction s (mrDecide s) := by
  refine ⟨.inr ?_, by simp [mrDecide], .inl (by simp [mrDecide]), .inl (by simp [mrDecide]), .inl (by simp [mrDecide])⟩
  rcases crAfterWrite_masterAck s.rem s.cr with h | h <;> simp [mrDecide, h]

theorem mrStore_reaction (s : State) : Reaction s (mrDecide (storeByte s)) := by
  refine ⟨.inr ?_, by simpa [mrDecide] using storeByte_memory_wf s, .inl (by simp [mrDecide]), .inl (by simp [mrDecide]),
    .inl (by simp [mrDecide])⟩
  rcases crAfterWrite_masterAck (storeByte s).rem s.cr with h | h <;> simp [mrDecide, h]

theorem srStore_reaction (s : State) : Reaction s (srDecide (storeByte s)) := by
  refine ⟨.inr ?_, by simpa [srDecide] using storeByte_memory_wf s, .inl (by simp [srDecide]), .inl (by simp [srDecide]),
    .inl (by simp [srDecide])⟩
  rcases crAfterWrite_slaveAck (storeByte s).rem s.cr with h | h <;> simp [srDecide, h]

theorem srAddressed_reaction (s : State) : Reaction s (srAddressed s) := by
  refine ⟨.inr ?_, by simp [srDecide, srAddressed], .inl (by simp [srDecide, srAddressed]),
    .inl (by simp [srDecide, srAddressed]), by simp [srDecide, srAddressed]⟩
  rcases crAfterWrite_slaveAck (slaveLoad s.slvWr .sr s).rem s.cr with h | h <;> simp [srDecide, srAddressed, h]

theorem stNext_reaction (s : State) : Reaction s (stNext s) := by
  refine ⟨.inr ?_, by simp [stNext], .inl (by simp [stNext]), .inl (by simp [stNext]), .inl (by simp [stNext])⟩
  rcases crAfterWrite_slaveAck (stLoad s).rem s.cr with h | h <;> simp [stNext, h]

theorem stAddressed_reaction (s : State) : Reaction s (stAddressed s) := by
  refine ⟨.inr ?_, by simp [stAddressed, stNext], .inl (by simp [stAddressed, stNext]),
    .inl (by simp [stAddressed, stNext]), by simp [stAddressed, stNext]⟩
  rcases crAfterWrite_slaveAck (stLoad (slaveLoad s.slvRd .st s)).rem s.cr with h | h <;> simp [stAddressed, stNext, h]

theorem stDone_reaction (s : State) : Reaction s (stDone s) :=
  ⟨by simp [stDone], by simp [stDone], by simp [stDone], by simp [stDone], by simp [stDone]⟩

theorem resetToIdle_reaction (s : State) : Reaction s (resetToIdle s) :=
  ⟨by simp [resetToIdle], by simp [resetToIdle], by simp [resetToIdle], by simp [resetToIdle], by simp [resetToIdle]⟩

theorem slaveWriteDone_reaction (s : State) : Reaction s (slaveWriteDone s) := by
  rw [slaveWriteDone_eq]
  refine ⟨by simp, by simp, ?_, ?_, by simp⟩
  · exact push_record _ _ _ _ (by simp) (by simp) (by simp)
  · by_cases h : s.target = 0#16 <;> simp [h]

theorem arbLost_reaction (s : State) :
    Reaction s (push .error { crWrite releaseCmd s with state := .error, count := minusOne }) := by
  refine ⟨by simp, by simp, ?_, by simp, by simp⟩
  exact push_record _ _ _ _ (by simp) (by simp) (by simp [minusOne])

/-! ### The command bodies -/

/-- R143: when a request is refused. -/
theorem requestRefused_iff (total : Nat) (s : State) :
    requestRefused total s = true ↔ s.role ≠ .master ∨ s.state ≠ .idle ∨ 32767 < total := by
  simp [requestRefused, or_assoc]

@[simp] theorem requestAccept_state (op : Bool) (s : State) :
    (requestAccept op s).state = if op then .mr else .mt := by simp [requestAccept]
@[simp] theorem requestAccept_role (op : Bool) (s : State) : (requestAccept op s).role = s.role := by simp [requestAccept]
@[simp] theorem requestAccept_dev (op : Bool) (s : State) : (requestAccept op s).dev = s.dev := by simp [requestAccept]
@[simp] theorem requestAccept_addr (op : Bool) (s : State) :
    (requestAccept op s).addr = requestAddress s.dev op := by simp [requestAccept]
@[simp] theorem requestAccept_count (op : Bool) (s : State) : (requestAccept op s).count = 0#16 := by simp [requestAccept]
@[simp] theorem requestAccept_cr (op : Bool) (s : State) : (requestAccept op s).cr = 0x65#8 := by simp [requestAccept]
@[simp] theorem requestAccept_mem (op : Bool) (s : State) : (requestAccept op s).mem = s.mem := by simp [requestAccept]
@[simp] theorem requestAccept_evq (op : Bool) (s : State) : (requestAccept op s).evq = s.evq := by simp [requestAccept]
@[simp] theorem requestAccept_busMode (op : Bool) (s : State) : (requestAccept op s).busMode = .mStart := by
  simp [requestAccept]
@[simp] theorem requestAccept_rem (op : Bool) (s : State) : (requestAccept op s).rem = (segLoad 0 s).rem := by
  simp [requestAccept, State.rem]

/-! ### The call-back's commands -/

/-- R222: what a command of the call-back can do: a command step on the exchanged ports. -/
theorem callRun_next (w : CmdWord) (s t : State) (h : callRun w s = .next t) :
    ∃ u, commandStep { swapPorts s with port := .presented w } = .next u ∧ t = swapPorts u := by
  unfold callRun mapNext at h
  split at h
  · cases h; exact ⟨_, ‹_›, rfl⟩
  · cases h
  · cases h

end Sys2Proof.Machine
end

