-- ==== Sys2Proof/Tests/Slice0.lean ====
section
/-! SUPPORT. The model's own tests. Every expected value comes from the spec's vectors and examples (95_test_vectors.md and
the examples of the rules); each docstring names its source. Then, for every obligation with hypotheses, a named witness
that meets them. -/

namespace Sys2Proof.Tests

open Sys2Proof Sys2Proof.Machine

/-! ### Helpers -/

/-- The next state of one instruction; the state itself if there is none. -/
def after (i : Instr) (s : State) : State :=
  match exec i s with
  | .next t => t
  | _ => s

/-- Bound as master to 0x50 (V-CMD-1). -/
def master (target : Half) : State := after (.beginCmd 0x50#8 target) State.reset

/-- Bound as slave 0x2A with both buffers registered (V-SLV-1, V-SLV-4). -/
def slave (target : Half) : State :=
  after (.sbegin 0x2A#8 target)
    { State.reset with
      slvWr := ⟨0x0120#16, 2#16⟩
      slvRd := ⟨0x0130#16, 2#16⟩
      mem := [(0x0130, 0x5A#8), (0x0131, 0xA5#8)] }

/-- The source's write in flight (V-SEQ-5): WREQ1 0x3A, 0x0100, 3. -/
def writing : State :=
  after (.wreq1 0x3A#8 0x0100#16 3#16)
    { master 0x0200#16 with mem := [(0x0100, 0x01#8), (0x0101, 0x02#8), (0x0102, 0x03#8)] }

/-- A read of three bytes in flight (V-EVT-10). -/
def reading : State := after (.rreq 0x0110#16 3#16) (master 0x0200#16)

/-- What the response port shows. -/
def response (s : State) : Option RespWord :=
  match s.port with
  | .answered r => some r
  | _ => none

/-- IX, NEXT, LAST, COUNT. -/
def cursor (s : State) : Nat × Ptr × Ptr × Half := (s.ix.val, s.next, s.last, s.count)

/-! ### WellFormed refuses the ill-formed terms (R74) -/

theorem test_wf_begin_bit7 : (Instr.beginCmd 0x80#8 0#16).wellFormed = false := by decide
theorem test_wf_sbegin_bit7 : (Instr.sbegin 0xD4#8 0x0300#16).wellFormed = false := by decide
theorem test_wf_legal :
    (Instr.beginCmd 0x7F#8 0#16).wellFormed = true ∧ (Instr.wreq1 0x80#8 0x0100#16 1#16).wellFormed = true := by decide

/-! ### Decoding of words written out from the spec's encodings -/

/-- V-ENC-1 to V-ENC-15: every command. -/
theorem test_decode_commands :
    decodeCommand 0x0150020000000000#64 = .ok (.beginCmd 0x50#8 0x0200#16) ∧
    decodeCommand 0x022A030000000000#64 = .ok (.sbegin 0x2A#8 0x0300#16) ∧
    decodeCommand 0x0300000000000000#64 = .ok .endCmd ∧
    decodeCommand 0x0400000001000003#64 = .ok (.wreq 0x0100#16 3#16) ∧
    decodeCommand 0x053A000001000003#64 = .ok (.wreq1 0x3A#8 0x0100#16 3#16) ∧
    decodeCommand 0x0600123401000002#64 = .ok (.wreq2 0x1234#16 0x0100#16 2#16) ∧
    decodeCommand 0x0700000001100002#64 = .ok (.rreq 0x0110#16 2#16) ∧
    decodeCommand 0x08FF000000000000#64 = .ok (.awaitCmd 0xFF#8) ∧
    decodeCommand 0x0900000000000000#64 = .ok .poll ∧
    decodeCommand 0x0A00000001300002#64 = .ok (.setrb 0x0130#16 2#16) ∧
    decodeCommand 0x0B00000001200002#64 = .ok (.setwb 0x0120#16 2#16) ∧
    decodeCommand 0x0C00000000000000#64 = .ok .rearm := by decide

/-- V-ENC-16 to V-ENC-21. -/
theorem test_decode_illegal_and_junk :
    decodeCommand 0x0D00000000000000#64 = .error (.illegalOpcode 0x0D#8) ∧
    decodeCommand 0x0000000000000000#64 = .error (.illegalOpcode 0x00#8) ∧
    decodeCommand 0xFF00000000000000#64 = .error (.illegalOpcode 0xFF#8) ∧
    decodeCommand 0x0180000000000000#64 = .error (.addressBit7 0x80#8) ∧
    decodeCommand 0x02D4030000000000#64 = .error (.addressBit7 0xD4#8) ∧
    decodeCommand 0x03FFFFFFFFFFFFFF#64 = .ok .endCmd := by decide

/-- R121: the master and common codes. -/
theorem test_decode_master_codes :
    decodeStatus 0x00#8 = .busError ∧ decodeStatus 0x08#8 = .start ∧ decodeStatus 0x10#8 = .repStart ∧
    decodeStatus 0x18#8 = .mtSlaAck ∧ decodeStatus 0x20#8 = .mtSlaNack ∧ decodeStatus 0x28#8 = .mtDataAck ∧
    decodeStatus 0x30#8 = .mtDataNack ∧ decodeStatus 0x38#8 = .arbLost ∧ decodeStatus 0x40#8 = .mrSlaAck ∧
    decodeStatus 0x48#8 = .mrSlaNack ∧ decodeStatus 0x50#8 = .mrDataAck ∧ decodeStatus 0x58#8 = .mrDataNack := by decide

/-- R121: the slave-receive codes. -/
theorem test_decode_slave_receive_codes :
    decodeStatus 0x60#8 = .srSlaAck ∧ decodeStatus 0x68#8 = .srArbLostSlaAck ∧ decodeStatus 0x70#8 = .srGcallAck ∧
    decodeStatus 0x78#8 = .srArbLostGcallAck ∧ decodeStatus 0x80#8 = .srDataAck ∧ decodeStatus 0x88#8 = .srDataNack ∧
    decodeStatus 0x90#8 = .srGcallDataAck ∧ decodeStatus 0x98#8 = .srGcallDataNack ∧
    decodeStatus 0xA0#8 = .srStop := by decide

/-- R121: the slave-transmit codes, the unnamed codes and NO_INFO. -/
theorem test_decode_slave_transmit_and_unnamed_codes :
    decodeStatus 0xA8#8 = .stSlaAck ∧ decodeStatus 0xB0#8 = .stArbLostSlaAck ∧ decodeStatus 0xB8#8 = .stDataAck ∧
    decodeStatus 0xC0#8 = .stDataNack ∧ decodeStatus 0xC8#8 = .stLastData ∧ decodeStatus 0xD0#8 = .unmappedD0 ∧
    decodeStatus 0xD8#8 = .unmappedD8 ∧ decodeStatus 0xE0#8 = .unmappedE0 ∧ decodeStatus 0xE8#8 = .unmappedE8 ∧
    decodeStatus 0xF0#8 = .unmappedF0 ∧ decodeStatus 0xF8#8 = .noInfo := by decide

/-- V-DEC-3, 5, 6, 7, 11, 14. -/
theorem test_decode_low_bits :
    decodeCondition 0x0F#8 = .start ∧ decodeCondition 0x07#8 = .busError ∧ arbLost 0x3A#8 = true ∧
    arbLost 0x68#8 = false ∧ decodeCondition 0xD7#8 = .unmapped ∧ decodeCondition 0xFF#8 = .noInfo := by decide

/-- The host's numbering: a 64-bit row and an 8-bit row. -/
theorem test_table_words :
    decodeTableWord 64 0x053A000001000003 = some (.wreq1 0x3A#8 0x0100#16 3#16) ∧
    decodeTableWord 8 0x28 = some .mtDataAck ∧ decodeTableWord 64 0x0D00000000000000 = none := by decide

/-! ### Commands (95_test_vectors.md 2.3, 2.4, 2.6) -/

/-- V-CMD-1. -/
theorem test_begin :
    let s := master 0x0200#16
    s.dev = 0xA0#8 ∧ s.target = 0x0200#16 ∧ s.role = .master ∧ s.brr = 72#8 ∧ s.pue = true ∧ s.ar = 0x00#8 ∧
    s.cr = 0x45#8 ∧ s.sr = 0xF8#8 ∧ s.state = .idle ∧ response s = some 0x010001#24 := by decide

/-- V-CMD-2, V-CMD-21: refused while bound; after an END that did not drain it resets STATE. -/
theorem test_begin_refused_and_recovery :
    response (after (.beginCmd 0x51#8 0x0999#16) (master 0x0200#16)) = some 0x010000#24 ∧
    (after (.beginCmd 0x51#8 0x0999#16) (master 0x0200#16)).dev = 0xA0#8 ∧
    response (after (.beginCmd 0x50#8 0#16) (after .endCmd (after (.wreq 0x0100#16 0x7FFF#16) (master 0#16)))) =
      some 0x010001#24 := by decide

/-- V-SLV-4, V-CMD-3. -/
theorem test_sbegin :
    let s := slave 0x0300#16
    s.dev = 0x54#8 ∧ s.ar = 0x54#8 ∧ s.target = 0x0300#16 ∧ s.role = .slave ∧ s.cr = 0x45#8 ∧
    response s = some 0x010001#24 ∧ response (after (.sbegin 0x2A#8 0#16) (master 0x0200#16)) = some 0x010000#24 := by
  decide

/-- V-CMD-4, V-CMD-24. -/
theorem test_end :
    response (after .endCmd State.reset) = some 0x010000#24 ∧ (after .endCmd State.reset).cr = 0x00#8 ∧
    response (after .endCmd (after .mtSlaNack writing)) = some 0x000001#24 ∧
    (after .endCmd (after .mtSlaNack writing)).count = 0xFFFF#16 := by decide

/-- V-CMD-18, V-CMD-19: the drain holds; with no target END abandons the transfer. -/
theorem test_end_in_flight :
    after .endCmd writing = writing ∧
    (let s := after .endCmd (after (.wreq 0x0100#16 3#16) (master 0#16))
     s.role = .none ∧ s.cr = 0x00#8 ∧ s.state = .mt ∧ response s = some 0x020001#24) := by decide

/-- V-SEQ-1, V-CMD-12, V-SEQ-8, V-SEQ-9. -/
theorem test_wreq :
    let s := after (.wreq 0x0100#16 0x7FFF#16) (master 0x0200#16)
    s.vec.slot0 = ⟨0x0100#16, 0x7FFF#16⟩ ∧ s.vec.slot1 = ⟨0#16, 0#16⟩ ∧ cursor s = (0, 0x0100#16, 0x80FF#16, 0#16) ∧
    s.addr = 0xA0#8 ∧ s.state = .mt ∧ s.cr = 0x65#8 ∧ s.pending = some ⟨0xE5#8, 0xFF#8⟩ ∧
    response s = some 0x020000#24 ∧
    response (after (.wreq 0x0100#16 0x8000#16) (master 0x0200#16)) = some 0x01FFFF#24 := by decide

/-- V-SEQ-2b, V-SEQ-13: a null buffer is the empty descriptor whatever its size. -/
theorem test_wreq_null :
    cursor (after (.wreq 0#16 9#16) (master 0#16)) = (0, 0#16, 0#16, 0#16) ∧
    response (after (.wreq 0#16 0xFFFF#16) (master 0#16)) = some 0x020000#24 := by decide

/-- V-SEQ-5, V-SEQ-10. -/
theorem test_wreq1 :
    writing.hdr0 = 0x3A#8 ∧ writing.vec.slot0 = ⟨0x0060#16, 1#16⟩ ∧ writing.vec.slot1 = ⟨0x0100#16, 3#16⟩ ∧
    cursor writing = (0, 0x0060#16, 0x0061#16, 0#16) ∧
    response (after (.wreq1 0#8 0x0100#16 0x7FFF#16) (master 0#16)) = some 0x01FFFF#24 := by decide

/-- V-SEQ-6, V-SEQ-11, V-SEQ-12. -/
theorem test_wreq2 :
    let s := after (.wreq2 0x1234#16 0x0100#16 2#16) (master 0#16)
    s.hdr0 = 0x12#8 ∧ s.hdr1 = 0x34#8 ∧ s.vec.slot0 = ⟨0x0060#16, 2#16⟩ ∧ s.vec.slot1 = ⟨0x0100#16, 2#16⟩ ∧
    response (after (.wreq2 0#16 0x0100#16 0x7FFE#16) (master 0#16)) = some 0x01FFFF#24 ∧
    response (after (.wreq2 0#16 0x0100#16 0x7FFD#16) (master 0#16)) = some 0x020000#24 := by decide

/-- V-SEQ-7 with three bytes; V-CMD-9, V-CMD-10. -/
theorem test_rreq :
    reading.vec.slot0 = ⟨0x0110#16, 3#16⟩ ∧ cursor reading = (0, 0x0110#16, 0x0113#16, 0#16) ∧ reading.addr = 0xA1#8 ∧
    reading.state = .mr ∧ response reading = some 0x030000#24 ∧
    response (after (.rreq 0#16 2#16) (master 0#16)) = some 0x01FFFF#24 ∧
    response (after (.rreq 0x0110#16 0#16) (master 0#16)) = some 0x01FFFF#24 := by decide

/-- V-CMD-7, V-CMD-17, V-RSP-9. -/
theorem test_await :
    response (after (.awaitCmd 0#8) State.reset) = some 0x010000#24 ∧ after (.awaitCmd 0#8) writing = writing ∧
    response (after (.awaitCmd 7#8) (after .mtSlaNack writing)) = some 0x00FFFF#24 := by decide

/-- V-CMD-8, V-RSP-11: POLL in a write after two bytes. -/
theorem test_poll :
    response (after .poll State.reset) = some 0x010000#24 ∧
    response (after .poll (after .mtDataAck (after .mtSlaAck (after .start writing)))) = some 0x020002#24 := by decide

/-- V-SLV-2, V-SLV-3, V-CMD-15. -/
theorem test_setrb :
    response (after (.setrb 0x0130#16 0x8000#16) State.reset) = some 0x01FFFF#24 ∧
    (after (.setrb 0x0130#16 0x7FFF#16) State.reset).slvRd = ⟨0x0130#16, 0x7FFF#16⟩ ∧
    response (after (.setrb 0x0130#16 2#16) writing) = some 0x02FFFF#24 := by decide

/-- V-SLV-1, V-SLV-9. -/
theorem test_setwb :
    (after (.setwb 0x0120#16 2#16) State.reset).slvWr = ⟨0x0120#16, 2#16⟩ ∧
    response (after (.setwb 0x0140#16 4#16) (after .srSlaAck (slave 0x0300#16))) = some 0x05FFFF#24 := by decide

/-- V-CMD-6, V-CMD-11, V-SLV-12. -/
theorem test_rearm :
    response (after .rearm State.reset) = some 0x01FFFF#24 ∧ response (after .rearm (master 0#16)) = some 0x01FFFF#24 ∧
    (let s := after .rearm (after .srStop (after .srSlaAck (slave 0x0300#16)))
     s.ar = 0x54#8 ∧ s.callbackDue = false ∧ response s = some 0x010000#24) := by decide

/-! ### Master and common events (2.5) -/

/-- V-EVT-1. -/
theorem test_start :
    let s := after .start (after (.wreq 0x0100#16 3#16) (master 0x0200#16))
    s.dr = 0xA0#8 ∧ s.pending = some ⟨0x85#8, 0xA0#8⟩ ∧ s.cr = 0x05#8 := by decide

/-- V-EVT-2. -/
theorem test_repStart : (after .repStart reading).dr = 0xA1#8 := by decide

/-- V-EVT-4, in the source's scenario: the header byte is sent first. -/
theorem test_mtSlaAck :
    let s := after .mtSlaAck (after .start writing)
    s.dr = 0x3A#8 ∧ cursor s = (0, 0x0061#16, 0x0061#16, 1#16) ∧ s.cr = 0x05#8 := by decide

/-- V-EVT-7: the address-only probe. -/
theorem test_mtSlaAck_probe :
    let s := after .mtSlaAck (after .start (after (.wreq 0#16 0#16) (master 0x0200#16)))
    s.state = .idle ∧ s.count = 0#16 ∧ s.cr = 0x55#8 ∧ s.evq = [⟨.writeCompleted, 0x0200#16, 0#16⟩] := by decide

/-- V-ADV-2: the chaining to the payload. -/
theorem test_mtDataAck :
    let s := after .mtDataAck (after .mtSlaAck (after .start writing))
    s.dr = 0x01#8 ∧ cursor s = (1, 0x0101#16, 0x0103#16, 2#16) := by decide

/-- V-ADV-3: after the last byte the write completes with COUNT = 4 (S6). -/
theorem test_mtDataAck_last :
    let s := after .mtDataAck { writing with ix := 1, next := 0x0103#16, last := 0x0103#16, count := 4#16 }
    cursor s = (2, 0#16, 0#16, 4#16) ∧ s.state = .idle ∧ s.pending.map (·.cmd) = some 0xD5#8 ∧
    s.evq = [⟨.writeCompleted, 0x0200#16, 4#16⟩] := by decide

/-- V-EVT-6. -/
theorem test_mtDataNack :
    let s := after .mtDataNack { writing with count := 2#16 }
    s.state = .idle ∧ s.count = 2#16 ∧ s.cr = 0x55#8 ∧ s.evq = [⟨.writeCompleted, 0x0200#16, 2#16⟩] := by decide

/-- V-EVT-8, V-EVT-22. -/
theorem test_mtSlaNack :
    let s := after .mtSlaNack writing
    s.state = .error ∧ s.count = 0xFFFF#16 ∧ s.cr = 0x55#8 ∧ s.evq = [⟨.error, 0x0200#16, 0xFFFF#16⟩] ∧
    (after .mtSlaNack { writing with target := 0#16 }).evq = [] := by decide

/-- V-ARB-1, V-ARB-5: from IDLE, and as a slave with AR unchanged. -/
theorem test_arbLost :
    let s := after .arbLost (master 0x0200#16)
    s.state = .error ∧ s.count = 0xFFFF#16 ∧ s.pending.map (·.cmd) = some 0xC5#8 ∧
    s.evq = [⟨.error, 0x0200#16, 0xFFFF#16⟩] ∧ (after .arbLost (after .srSlaAck (slave 0x0300#16))).ar = 0x54#8 := by
  decide

/-- V-EVT-10; S3: a one-byte read announces NACK. -/
theorem test_mrSlaAck :
    (after .mrSlaAck reading).cr = 0x45#8 ∧
    (after .mrSlaAck (after (.rreq 0x0110#16 1#16) (master 0#16))).pending.map (·.cmd) = some 0x85#8 := by decide

/-- V-EVT-11, V-EVT-12. -/
theorem test_mrDataAck :
    let s := after .mrDataAck { reading with dr := 0x01#8 }
    let t := after .mrDataAck { s with dr := 0x02#8 }
    s.mem = [(0x0110, 0x01#8)] ∧ cursor s = (0, 0x0111#16, 0x0113#16, 1#16) ∧ s.cr = 0x45#8 ∧
    t.mem = [(0x0110, 0x01#8), (0x0111, 0x02#8)] ∧ t.count = 2#16 ∧ t.cr = 0x05#8 := by decide

/-- V-EVT-15: with nothing left the byte is dropped. -/
theorem test_mrDataAck_full :
    let s := after .mrDataAck { reading with next := 0x0113#16, count := 3#16, dr := 0x04#8 }
    s.mem = [] ∧ s.count = 3#16 ∧ s.cr = 0x05#8 ∧ s.state = .mr := by decide

/-- V-EVT-13. -/
theorem test_mrDataNack :
    let s := after .mrDataNack { reading with next := 0x0112#16, count := 2#16, dr := 0x03#8 }
    s.mem = [(0x0112, 0x03#8)] ∧ s.count = 3#16 ∧ s.state = .idle ∧ s.cr = 0x55#8 ∧
    s.evq = [⟨.readCompleted, 0x0200#16, 3#16⟩] := by decide

/-- V-EVT-16. -/
theorem test_mrDataNack_full :
    let s := after .mrDataNack { reading with next := 0x0113#16, count := 3#16, dr := 0x04#8 }
    s.mem = [] ∧ s.count = 3#16 ∧ s.evq = [⟨.readCompleted, 0x0200#16, 3#16⟩] := by decide

/-- V-EVT-9. -/
theorem test_mrSlaNack :
    let s := after .mrSlaNack reading
    s.state = .error ∧ s.count = 0xFFFF#16 ∧ s.mem = [] ∧ s.evq = [⟨.error, 0x0200#16, 0xFFFF#16⟩] := by decide

/-- V-EVT-18: the same from IDLE. -/
theorem test_busError :
    let s := after .busError { master 0x0200#16 with count := 4#16 }
    s.state = .error ∧ s.count = 0xFFFF#16 ∧ s.cr = 0x55#8 ∧ s.evq = [⟨.error, 0x0200#16, 0xFFFF#16⟩] := by decide

/-- V-EVT-21. -/
theorem test_noInfo : after .noInfo { writing with cr := 0xC5#8 } = { writing with cr := 0xC5#8 } := by decide

/-- V-EVT-19, V-EVT-20, over the five codes. -/
theorem test_unmapped :
    ([Instr.unmappedD0, .unmappedD8, .unmappedE0, .unmappedE8, .unmappedF0].all fun i =>
      let s := after i { writing with count := 1#16 }
      s.state == .idle && s.count == 1#16 && s.cr == 0x45#8 && s.evq == []) = true ∧
    (after .unmappedE8 { master 0x0200#16 with state := .error, count := 0xFFFF#16 }).count = 0xFFFF#16 := by decide

/-! ### Slave events (2.6) -/

/-- V-SLV-7, V-SLV-10. -/
theorem test_srSlaAck :
    let s := after .srSlaAck (slave 0x0300#16)
    s.next = 0x0120#16 ∧ s.last = 0x0122#16 ∧ s.count = 0#16 ∧ s.state = .sr ∧ s.cr = 0x45#8 ∧
    (after .srSlaAck { slave 0#16 with slvWr := ⟨0#16, 9#16⟩ }).cr = 0x05#8 := by decide

/-- V-SLV-22. -/
theorem test_srArbLostSlaAck :
    let s := after .srArbLostSlaAck { writing with slvWr := ⟨0x0120#16, 2#16⟩ }
    s.state = .sr ∧ s.next = 0x0120#16 ∧ s.vec = writing.vec ∧ s.evq = [] := by decide

/-- V-SLV-19. -/
theorem test_srGcallAck : (after .srGcallAck (slave 0x0300#16)).last = 0x0122#16 := by decide
theorem test_srArbLostGcallAck : (after .srArbLostGcallAck (slave 0x0300#16)).state = .sr := by decide

/-- R210's example. -/
theorem test_srDataAck :
    let s := after .srDataAck { after .srSlaAck (slave 0x0300#16) with mem := [], dr := 0x10#8 }
    let t := after .srDataAck { s with dr := 0x20#8 }
    s.mem = [(0x0120, 0x10#8)] ∧ s.cr = 0x45#8 ∧ t.mem = [(0x0120, 0x10#8), (0x0121, 0x20#8)] ∧ t.count = 2#16 ∧
    t.cr = 0x05#8 := by decide

/-- V-SLV-20. -/
theorem test_srGcallDataAck :
    (after .srGcallDataAck { after .srGcallAck (slave 0x0300#16) with mem := [], dr := 0x10#8 }).mem =
      [(0x0120, 0x10#8)] := by decide

/-- R212's example: the second byte is discarded. -/
theorem test_srDataNack :
    let s := after .srDataNack { slave 0x0300#16 with state := .sr, count := 1#16, dr := 0x20#8, mem := [] }
    s.ar = 0x00#8 ∧ s.cr = 0x45#8 ∧ s.state = .idle ∧ s.mem = [] ∧ s.callbackDue = true ∧
    s.evq = [⟨.writeCompleted, 0x0300#16, 1#16⟩] := by decide

/-- V-SLV-21. -/
theorem test_srGcallDataNack :
    (after .srGcallDataNack { slave 0x0300#16 with state := .sr, count := 2#16 }).evq =
      [⟨.writeCompleted, 0x0300#16, 2#16⟩] := by decide

/-- V-SLV-8, V-SLV-18. -/
theorem test_srStop :
    (let s := after .srStop (after .srSlaAck (slave 0x0300#16))
     s.ar = 0x00#8 ∧ s.state = .idle ∧ s.evq = [⟨.writeCompleted, 0x0300#16, 0#16⟩] ∧ s.callbackDue = true) ∧
    (let s := after .srStop (after .srSlaAck (slave 0#16))
     s.ar = 0x00#8 ∧ s.evq = [] ∧ s.callbackDue = false) := by decide

/-- R216's example; V-SLV-13: no buffer. -/
theorem test_stSlaAck :
    let s := after .stSlaAck (slave 0x0300#16)
    s.dr = 0x5A#8 ∧ s.next = 0x0131#16 ∧ s.count = 1#16 ∧ s.state = .st ∧ s.cr = 0x45#8 ∧
    (after .stSlaAck { slave 0#16 with slvRd := ⟨0#16, 0#16⟩ }).dr = 0xFF#8 := by decide

/-- V-SLV-23. -/
theorem test_stArbLostSlaAck :
    let s := after .stArbLostSlaAck (slave 0x0300#16)
    s.dr = 0x5A#8 ∧ s.last = 0x0132#16 ∧ s.state = .st := by decide

/-- R218's example; V-SLV-17: the filler is not counted. -/
theorem test_stDataAck :
    let s := after .stDataAck (after .stSlaAck (slave 0x0300#16))
    let t := after .stDataAck s
    s.dr = 0xA5#8 ∧ s.next = 0x0132#16 ∧ s.count = 2#16 ∧ s.cr = 0x05#8 ∧ t.dr = 0xFF#8 ∧ t.count = 2#16 := by decide

/-- V-SLV-14, V-SLV-16. -/
theorem test_stDataNack :
    let s := after .stDataNack (after .stSlaAck (slave 0x0300#16))
    s.state = .idle ∧ s.cr = 0x45#8 ∧ s.evq = [] ∧ s.ar = 0x54#8 ∧ s.count = 1#16 := by decide
theorem test_stLastData :
    let s := after .stLastData (after .stSlaAck (slave 0x0300#16))
    s.state = .idle ∧ s.pending.map (·.cmd) = some 0xC5#8 ∧ s.evq = [] := by decide

/-! ### Shared operations and turns (2.7, 2.8, 2.9) -/

/-- V-CR-3, 6, 7, 8. -/
theorem test_crAfterWrite :
    crAfterWrite 0xE5#8 0x85#8 = 0x05#8 ∧ crAfterWrite 0xC5#8 0x45#8 = 0xC5#8 ∧ crAfterWrite 0xC5#8 0x00#8 = 0x80#8 ∧
    crAfterWrite 0x45#8 0xFF#8 = 0x75#8 := by decide

/-- V-EVR-1, V-EVR-3, V-RSP-8. -/
theorem test_records :
    EventRecord.word ⟨.writeCompleted, 0x0200#16, 4#16⟩ = 0x0202000004#40 ∧
    EventRecord.word ⟨.error, 0x0200#16, 0xFFFF#16⟩ = 0x010200FFFF#40 ∧ responseWord .idle 4#16 = 0x010004#24 := by
  decide

/-- V-MEM-1, V-MEM-2, V-MEM-3. -/
theorem test_header_window :
    let s := { State.reset with hdr0 := 0x3A#8, mem := [(0x60, 0x99#8), (0x62, 0x77#8)] }
    memRead 0x0060#16 s = 0x3A#8 ∧ memRead 0x0061#16 s = 0x00#8 ∧ memRead 0x0062#16 s = 0x77#8 ∧
    s.dataByte 0x0060#16 = 0x99#8 := by decide

/-- R55, R53: a store keeps the addresses rising and replaces in place. -/
theorem test_memory_write :
    Memory.write [(1, 1#8), (3, 3#8)] 2 9#8 = [(1, 1#8), (2, 9#8), (3, 3#8)] ∧
    Memory.write [(1, 1#8), (3, 3#8)] 3 9#8 = [(1, 1#8), (3, 9#8)] := by decide

/-- The next state of one step. -/
def stepped (s : State) : State :=
  match step s with
  | .next t => t
  | _ => s

/-- The very next step after withFetchWord runs the command, and the status code, placed. -/
theorem test_withFetchWord :
    response (stepped (State.reset.withFetchWord 64 0x0150020000000000)) = some 0x010001#24 ∧
    (stepped (State.reset.withFetchWord 8 0x38)).state = .error ∧
    response (stepped (State.reset.withFetchWord 64 0x0D00000000000000)) = some 0x01FFFE#24 := by decide

/-- R242: SR reads NO_INFO while INT is 0, and the waiting status while INT is 1. -/
theorem test_srValue :
    { writing with sr := 0x08#8 }.srValue = 0xF8#8 ∧ { writing with sr := 0x09#8, cr := 0xE5#8 }.srValue = 0x09#8 := by decide

/-- R258, R160: the HOST, waiting for its AWAIT, neither stores nor presents. -/
theorem test_host_waits :
    let s := { reading with port := .presented 0x0800000000000000#64, script := [] }
    stepped { s with script := [.hostStore 5#16 9#8] } = s ∧ stepped { s with script := [.hostPresent 0#64] } = s := by decide

/-- R222, R142 (e): the call-back's SETRB; its REARM arms the slave, and is refused after an END. -/
theorem test_call_back :
    let s := { slave 0x0300#16 with ar := 0x00#8, callbackDue := true, onRequest := some ⟨0x0120#16, 2#16⟩ }
    (stepped { s with script := [.callCommand 0x0A00000001400001#64] }).slvRd = ⟨0x0140#16, 1#16⟩ ∧
    (stepped { s with script := [.callReturn] }).ar = 0x54#8 ∧
    (stepped { s with script := [.callReturn] }).callPort = .answered 0x010000#24 ∧
    (stepped { after .endCmd s with script := [.callReturn] }).callPort = .answered 0x01FFFF#24 := by decide

/-- R246, last row: in mode FREE no address match while a STOP is pending; once it is finished, one may come. -/
theorem test_no_match_before_the_stop_is_finished :
    let s := after .busError (after .srSlaAck (slave 0x0300#16))
    s.busMode = .free ∧ s.armed = true ∧ legalDelivery s 0x60#8 = false ∧
    legalDelivery (stepped { s with script := [.finish] }) 0x60#8 = true := by decide

/-- R142 (c), V-CR-7, V-CR-6: INT survives END and the next BEGIN, so an event of an abandoned read (R293) is answered after
them, with the cursor at 0, and its byte is dropped. This is why R247 (b) is stated of transfers in flight and of runs that
keep R293 (log entry 21). -/
theorem test_event_of_an_abandoned_read :
    let s := { after .mrSlaAck reading with target := 0#16, cr := 0xC5#8, sr := 0x50#8, dr := 0xAB#8, pending := none }
    let t := after (.beginCmd 0x50#8 0#16) (after .endCmd s)
    s.rem = 3#16 ∧ t.eventEnabled = true ∧ decodeStatus t.srValue = .mrDataAck ∧ t.rem = 0#16 ∧
    (after .mrDataAck t).mem = t.mem := by decide

/-- R236, V-CR-5: the STOP finishes. -/
theorem test_finish_stop :
    (stepped { after .mtDataNack writing with script := [.finish] }).cr = 0x45#8 ∧
    (stepped { after .mtDataNack writing with script := [.finish] }).pending = none := by decide

/-! ### Witnesses: concrete states and operands that meet the hypotheses of the statements -/

theorem witness_AfterResetOnlyTheHostActs : (0x7F#8).msb = false ∧ (0x00#8).msb = false := by decide
theorem witness_ResetTurnKeepsOnlyTheDataSpace : { writing with script := [.reset] }.script = .reset :: [] := by decide
theorem witness_BeginBindsAMasterOrIsRefused :
    (0x80#8).msb = true ∧ (0x7F#8).msb = false ∧ (master 0#16).role ≠ .none ∧ State.reset.role = .none := by decide
theorem witness_SbeginBindsAnArmedSlaveOrIsRefused :
    (0x80#8).msb = true ∧ (0x7F#8).msb = false ∧ (slave 0#16).role ≠ .none ∧ State.reset.role = .none := by decide
theorem witness_EndDrainsThenReleases :
    State.reset.role = .none ∧ (writing.role ≠ .none ∧ writing.target ≠ 0#16 ∧ writing.busy = true) ∧
    ((master 1#16).role ≠ .none ∧ (master 1#16).busy = false) ∧
    (let s := { writing with target := 0#16 }; s.role ≠ .none ∧ s.target = 0#16 ∧ s.busy = true) := by decide
theorem witness_AwaitHoldsAndPollAnswersAtOnce : writing.busy = true ∧ State.reset.busy = false := by decide
theorem witness_WreqAcceptedStartsAMasterTransmit :
    (master 0#16).role = .master ∧ (master 0#16).state = .idle ∧
    (if (0x0100#16 : Ptr) = 0#16 then 0 else (0x7FFF#16).toNat) ≤ 32767 ∧
    (if (0#16 : Ptr) = 0#16 then 0 else (0xFFFF#16).toNat) ≤ 32767 := by decide
theorem witness_Wreq1AcceptedPutsTheHeaderFirst :
    (master 0#16).role = .master ∧ (master 0#16).state = .idle ∧
    1 + (if (0x0100#16 : Ptr) = 0#16 then 0 else (0x7FFE#16).toNat) ≤ 32767 := by decide
theorem witness_Wreq2AcceptedSplitsTheHeader :
    (master 0#16).role = .master ∧ (master 0#16).state = .idle ∧
    2 + (if (0x0100#16 : Ptr) = 0#16 then 0 else (0x7FFD#16).toNat) ≤ 32767 := by decide
theorem witness_RreqRefusesEmptyElseStartsAMasterReceive :
    (0x0110#16 : Ptr) ≠ 0#16 ∧ (1#16 : Half) ≠ 0#16 ∧ (master 0#16).role = .master ∧ (master 0#16).state = .idle ∧
    (0x7FFF#16).toNat ≤ 32767 := by decide
theorem witness_RequestsAreRefusedWithoutAnyChange :
    State.reset.role ≠ .master ∧ writing.state ≠ .idle ∧
    32767 < (if (0x0100#16 : Ptr) = 0#16 then 0 else (0x8000#16).toNat) ∧
    32767 < 1 + (if (0x0100#16 : Ptr) = 0#16 then 0 else (0x7FFF#16).toNat) ∧
    32767 < 2 + (if (0x0100#16 : Ptr) = 0#16 then 0 else (0x7FFE#16).toNat) ∧ 32767 < (0x8000#16).toNat := by decide
theorem witness_SlaveBuffersAreRegisteredWhenNotInFlight :
    writing.busy = true ∧ 32767 < (0x8000#16).toNat ∧ State.reset.busy = false ∧ (0x7FFF#16).toNat ≤ 32767 := by decide
theorem witness_RearmArmsABoundSlave : (master 0#16).role ≠ .slave ∧ (slave 0#16).role = .slave := by decide
theorem witness_IllegalWordIsAnsweredMinusTwo :
    { writing with script := [.command], port := .presented 0x0D00000000000000#64 }.script = .command :: [] ∧
    0x0C < ((0x0D00000000000000#64 : CmdWord) >>> 56).toNat ∧ ((0#64 : CmdWord) >>> 56).toNat = 0 ∧
    ((0x02D4030000000000#64 : CmdWord) >>> 56).toNat = 2 ∧ (0x02D4030000000000#64 : CmdWord).getLsbD 55 = true := by decide
theorem witness_TransmitAckSendsTheNextByteOrStops :
    (advance writing).rem ≠ 0#16 ∧ (advance (after (.wreq 0#16 0#16) (master 0#16))).rem = 0#16 := by decide
theorem witness_ReadAddressAckAnnouncesTheFirstByte :
    2 ≤ ({ reading with next := 0x0111#16 }.last - { reading with next := 0x0111#16 }.next).toNat ∧
    ({ reading with next := 0x0112#16 }.last - { reading with next := 0x0112#16 }.next).toNat < 2 := by decide
theorem witness_ReadDataAckStoresAndAnnounces :
    3 ≤ (reading.last - reading.next).toNat ∧
    ({ reading with next := 0x0111#16 }.last - { reading with next := 0x0111#16 }.next).toNat = 2 ∧
    ({ reading with next := 0x0112#16 }.last - { reading with next := 0x0112#16 }.next).toNat = 1 ∧
    ({ reading with next := 0x0113#16 }.last - { reading with next := 0x0113#16 }.next).toNat = 0 := by decide
theorem witness_ReadDataNackStoresAndStops :
    reading.next ≠ reading.last ∧ { reading with next := 0x0113#16 }.next = reading.last := by decide
theorem witness_SlaveReceiveMatchLoadsTheWriteBuffer :
    (slave 0#16).slvWr.buf ≠ 0#16 ∧ (slave 0#16).slvWr.len ≠ 0#16 ∧ State.reset.slvWr.buf = 0#16 ∧
    { slave 0#16 with slvWr := ⟨1#16, 0#16⟩ }.slvWr.len = 0#16 := by decide
theorem witness_SlaveDataAckStoresAndAnnounces :
    let s := after .srSlaAck (slave 0#16)
    2 ≤ (s.last - s.next).toNat ∧ (s.last - { s with next := 0x0121#16 }.next).toNat = 1 ∧
    (s.last - { s with next := 0x0122#16 }.next).toNat = 0 := by decide
theorem witness_SlaveTransmitMatchLoadsTheReadBuffer :
    (slave 0#16).slvRd.buf ≠ 0#16 ∧ 2 ≤ (slave 0#16).slvRd.len.toNat ∧
    { slave 0#16 with slvRd := ⟨5#16, 1#16⟩ }.slvRd.len = 1#16 ∧ State.reset.slvRd.buf = 0#16 := by decide
theorem witness_SlaveTransmitAckLoadsTheNextByte :
    let s := after .stSlaAck { slave 0#16 with slvRd := ⟨0x0130#16, 3#16⟩ }
    2 ≤ (s.last - s.next).toNat ∧ (s.last - { s with next := 0x0132#16 }.next).toNat = 1 ∧
    (s.last - { s with next := 0x0133#16 }.next).toNat = 0 := by decide
theorem witness_ControlWriteFollowsTheBitRules :
    (0x85#8).getLsbD 7 = true ∧ (0x20#8).getLsbD 5 = true ∧ (0x00#8 : Byte) = 0x00#8 := by decide
theorem witness_AdvanceFindsAByteOrTheSentinel :
    writing.rem ≠ 0#16 ∧ atSentinel State.reset.vec State.reset.ix = true ∧
    (let s := { writing with next := 0x0061#16 }
     s.rem = 0#16 ∧ atSentinel s.vec s.ix = false ∧ atSentinel s.vec (advance s).ix = false) ∧
    (let s := { writing with ix := 1, next := 0x0103#16, last := 0x0103#16 }
     s.rem = 0#16 ∧ atSentinel s.vec s.ix = false ∧ atSentinel s.vec (advance s).ix = true) ∧
    (let s := after (.wreq1 0x3A#8 0x0100#16 0#16) (master 0#16)
     (0 : Fin 5) < 1 ∧ 1 < (advance { s with next := s.last }).ix) := by decide
theorem witness_DataSpaceReadsWritesAndTheHeaderWindow :
    (0x0060#16 : Ptr) = State.reset.params.hdrAddr ∧ (0x0061#16 : Ptr) = State.reset.params.hdrAddr + 1#16 ∧
    (0x0061#16 : Ptr) ≠ State.reset.params.hdrAddr ∧ (0x0062#16 : Ptr) ≠ State.reset.params.hdrAddr + 1#16 ∧
    Memory.wf writing.mem = true := by decide
theorem witness_DecodeReadsBackEveryEncodedInstruction :
    (Instr.beginCmd 0x7F#8 0xFFFF#16).wellFormed = true ∧ Instr.noInfo.wellFormed = true := by decide
theorem witness_DecodedCodesMatchTheirTableRow :
    decode (.command 0x017FFFFF00000000#64) = .ok (.beginCmd 0x7F#8 0xFFFF#16) ∧
    decode (.status 0xFF#8) = .ok .noInfo := by decide
theorem witness_StatusDecoderIgnoresTheLowBits : 0x08#8 &&& 0xF8#8 = 0x0F#8 &&& 0xF8#8 := by decide
theorem witness_StepRunsTheDecodedInstruction :
    (let s := { State.reset with script := [.command], port := .presented 0x0900000000000000#64 }
     s.script = .command :: [] ∧ s.port = .presented 0x0900000000000000#64 ∧
     decode (.command 0x0900000000000000#64) = .ok .poll) ∧
    (let s := { writing with script := [.event], cr := 0xE5#8, sr := 0x08#8 }
     s.script = .event :: [] ∧ s.int = true ∧ s.ie = true ∧ s.en = true ∧ decode (.status s.sr) = .ok .start) ∧
    (let s := { writing with script := [.event], cr := 0x65#8 }; s.script = .event :: [] ∧ s.int = false) := by decide
theorem witness_StepRunsTheCallBack :
    let s := { slave 1#16 with script := [.callCommand 0x0A00000001300002#64], onRequest := some ⟨0x0120#16, 2#16⟩ }
    let u := { s with script := [], port := .presented 0x0A00000001300002#64, callPort := s.port }
    s.script = .callCommand 0x0A00000001300002#64 :: [] ∧ s.onRequest.isSome = true ∧ s.busy = false ∧
    decode (.command 0x0A00000001300002#64) = .ok (.setrb 0x0130#16 2#16) ∧
    exec (.setrb 0x0130#16 2#16) u = .next (after (.setrb 0x0130#16 2#16) u) :=
  ⟨rfl, rfl, by decide, by decide, rfl⟩
theorem witness_StepRunsTheHost :
    ({ writing with script := [.hostPresent 0x0800000000000000#64] }.script = .hostPresent 0x0800000000000000#64 :: [] ∧
     writing.port = .answered 0x020000#24) ∧
    ({ writing with script := [.hostStore 5#16 9#8] }.script = .hostStore 5#16 9#8 :: []) ∧
    { writing with port := .presented 0x0800000000000000#64 }.port = .presented 0x0800000000000000#64 := by decide
theorem witness_ReactionsClearTheInterruptFlag :
    Instr.start.condition.isSome = true ∧ Instr.start ≠ .noInfo ∧ exec .start writing = .next (after .start writing) :=
  ⟨rfl, by decide, rfl⟩
theorem witness_ReactionsReadNeitherStateNorRole :
    Instr.arbLost.condition.isSome = true ∧ exec .arbLost writing = .next (after .arbLost writing) := ⟨rfl, rfl⟩
theorem witness_TransitionRelation_reaction :
    exec .mtSlaAck writing = .next (after .mtSlaAck writing) ∧ (advance writing).rem ≠ 0#16 := ⟨rfl, by decide⟩
theorem witness_TransitionRelation_sentinel :
    let s := after (.wreq 0#16 0#16) (master 0#16)
    exec .mtSlaAck s = .next (after .mtSlaAck s) ∧ (advance s).rem = 0#16 := ⟨rfl, by decide⟩
theorem witness_TransitionRelation_commands :
    isBind (.beginCmd 0x50#8 1#16) = true ∧ isWriteRequest (.wreq 1#16 1#16) = true ∧ isBind .poll = false ∧
    isRequest .poll = false ∧ Instr.poll.condition = none ∧ Instr.unmappedD0.condition = some .unmapped := by decide
theorem witness_HandlerContextFrame :
    Instr.mrDataAck.condition.isSome = true ∧ exec .mrDataAck reading = .next (after .mrDataAck reading) := ⟨rfl, rfl⟩
theorem witness_ForegroundContextFrame :
    Instr.condition (.rreq 1#16 1#16) = none ∧
    exec (.rreq 1#16 1#16) (master 0#16) = .next (after (.rreq 1#16 1#16) (master 0#16)) := ⟨rfl, rfl⟩
theorem witness_OnlyTheByteAtNextIsStored :
    storesByte .mrDataAck = true ∧ storesByte .mtDataAck = false ∧
    exec .mrDataAck reading = .next (after .mrDataAck reading) ∧ reading.next ≠ reading.last :=
  ⟨rfl, rfl, rfl, by decide⟩
theorem witness_CommandsKeepTheRegistersOfABoundTransfer :
    Instr.poll.condition = none ∧ writing.role ≠ .none ∧ writing.busy = true ∧
    exec .poll writing = .next (after .poll writing) := ⟨rfl, by decide, by decide, rfl⟩
theorem witness_HeldCommandStaysHeld :
    let s := { writing with port := .presented 0x0800000000000000#64, script := [.hostStore 5#16 9#8] }
    s.port = .presented 0x0800000000000000#64 ∧ decode (.command 0x0800000000000000#64) = .ok (.awaitCmd 0#8) ∧
    exec (.awaitCmd 0#8) s = .next s ∧ step s = .next (stepped s) := ⟨rfl, by decide, rfl, rfl⟩
theorem witness_ControlCommandsMoveTheBusMode :
    State.reset.busMode = .off ∧
    [Condition.start, .repStart, .mtSlaAck, .mtDataAck, .mrSlaAck, .mrDataAck, .srSlaAck, .srDataAck, .stSlaAck, .stDataAck,
      .arbLost, .srStop, .srDataNack, .stDataNack, .stLastData, .unmapped].all
        (fun c => { writing with busLast := some c }.busLast == some c) = true := by decide
theorem witness_BusTurnsDeliverAndFinish :
    (let s := { writing with script := [.deliver 0x08#8 0#8] }
     s.script = .deliver 0x08#8 0#8 :: [] ∧ s.en = true ∧ s.int = false) ∧
    (let s := { State.reset with script := [.deliver 0x08#8 0#8] }
     s.script = .deliver 0x08#8 0#8 :: [] ∧ s.en = false) ∧
    (let s := { after .mtDataNack writing with script := [.finish] }
     s.script = .finish :: [] ∧ s.pending = some ⟨0xD5#8, 0xFF#8⟩ ∧ s.en = true ∧ s.int = false) ∧
    (let s := { after .endCmd (master 0#16) with script := [.finish] }
     s.script = .finish :: [] ∧ s.pending = some ⟨0x00#8, 0xFF#8⟩) := by decide
theorem witness_BusTurnsFinishOtherwise :
    (let s := { after .arbLost writing with script := [.finish] }
     s.script = .finish :: [] ∧ s.pending = some ⟨0xC5#8, 0xFF#8⟩ ∧ s.busMode = .free ∧ s.en = true ∧ s.int = false) ∧
    (let s := { writing with script := [.finish] }
     s.script = .finish :: [] ∧ s.pending = some ⟨0xE5#8, 0xFF#8⟩) ∧
    (let s := { after .mtDataNack writing with script := [.finish], cr := 0xD5#8 }
     s.script = .finish :: [] ∧ s.pending = some ⟨0xD5#8, 0xFF#8⟩ ∧ s.int = true) ∧
    (let s := { State.reset with script := [.finish] }; s.script = .finish :: [] ∧ s.pending = none) := by decide
theorem witness_EventqDispatchesCallsBackAndRearms :
    (let s := { after .srStop (slave 0x0300#16) with script := [.dispatch] }
     s.script = .dispatch :: [] ∧ s.onRequest = none ∧ s.evq = [⟨.writeCompleted, 0x0300#16, 0#16⟩] ∧
     s.role = .slave ∧ s.target = 0x0300#16 ∧ s.callbackDue = true) ∧
    (let s := { after .mtDataNack writing with script := [.dispatch] }
     s.onRequest = none ∧ s.evq = [⟨.writeCompleted, 0x0200#16, 0#16⟩] ∧ s.role ≠ .slave) ∧
    (let s := { slave 0x0300#16 with script := [.callReturn], onRequest := some ⟨0x0120#16, 0#16⟩ }
     s.script = .callReturn :: [] ∧ s.onRequest.isSome = true ∧ s.role = .slave) ∧
    (let s := { State.reset with script := [.callReturn], onRequest := some ⟨0x0120#16, 0#16⟩ }
     s.script = .callReturn :: [] ∧ s.onRequest.isSome = true ∧ s.role ≠ .slave) ∧
    (let s := { State.reset with script := [.callStore 5#16 9#8] }
     s.script = .callStore 5#16 9#8 :: [] ∧ s.onRequest = none ∧ s.evq = []) ∧
    { writing with script := [.callCommand 0#64] }.busy = true := by decide
theorem witness_AckedWriteSendsEveryByteInOrder :
    isWriteRequest (.wreq2 0x1234#16 0x0100#16 2#16) = true ∧
    (master 1#16).role = .master ∧ (master 1#16).state = .idle ∧
    writeTotal (.wreq2 0x1234#16 0x0100#16 0x7FFD#16) ≤ 32767 ∧ 3 < writeTotal (.wreq2 0x1234#16 0x0100#16 2#16) := by decide
theorem witness_AckedReadStoresEveryByteInOrder :
    (0x0110#16 : Ptr) ≠ 0#16 ∧ 1 ≤ [0xAB#8].length ∧ [0xAB#8].length ≤ 32767 ∧
    (1#16 : Half) = BitVec.ofNat 16 [0xAB#8].length ∧ (master 0#16).role = .master ∧ (master 0#16).state = .idle := by
  decide

/-! ### Witnesses of the contract statements: runs from reset that respect R246 -/

/-- The contract's check of the turn about to be taken. -/
def contractCheck (s : State) : Bool :=
  match s.script with
  | .deliver code _ :: _ => !(s.en && !s.int) || legalDelivery s code
  | _ => true

theorem contractHolds_of_check (s : State) (h : contractCheck s = true) : ContractHolds s := by
  intro code data rest hs hen hint
  simpa [contractCheck, hs, hen, hint] using h

/-- The software's check of a step (R293). -/
def keepsCheck (s t : State) : Bool := s.role == .none || t.role != .none || !t.busy

theorem keepsTransfers_of_check (s t : State) (h : keepsCheck s t = true) : KeepsTransfers s t := by
  intro hs ht
  simpa [keepsCheck, hs, ht] using h

/-- `n` steps, each of them checked. -/
def runChecked : Nat → State → Option State
  | 0, s => some s
  | n + 1, s =>
    match step s with
    | .next t => if contractCheck s && keepsCheck s t then runChecked n t else none
    | _ => none

theorem reachable_of_runChecked (n : Nat) (s t : State) (hs : ContractReachable s ∧ DrainedReachable s)
    (h : runChecked n s = some t) : ContractReachable t ∧ DrainedReachable t := by
  induction n generalizing s with
  | zero => cases h; exact hs
  | succ n ih =>
    unfold runChecked at h
    split at h
    · rename_i u hu
      split at h
      · rename_i hc
        simp only [Bool.and_eq_true] at hc
        have hc1 := contractHolds_of_check s hc.1
        exact ih u ⟨.step s u hs.1 hc1 hu, .step s u hs.2 hc1 hu (keepsTransfers_of_check s u hc.2)⟩ h
      · cases h
    · cases h

/-- Reset, with a script. -/
def start (script : List Turn) : State := { State.reset with mem := [], params := Params.default, script := script }

theorem start_reachable (script : List Turn) : ContractReachable (start script) ∧ DrainedReachable (start script) :=
  ⟨.reset [] Params.default script rfl, .reset [] Params.default script rfl⟩

/-- Program P2 up to the first received byte, waiting in SR. -/
def readScript : List Turn :=
  [.hostPresent 0x0150020000000000#64, .command, .hostPresent 0x0700000001100002#64, .command, .deliver 0x08#8 0#8, .event,
   .deliver 0x40#8 0#8, .event, .deliver 0x50#8 0xAB#8, .event, .deliver 0x58#8 0xCD#8]

/-- A slave read of two bytes up to the master's first ACK. -/
def slaveScript : List Turn :=
  [.hostPresent 0x0A00000001300002#64, .command, .hostPresent 0x022A030000000000#64, .command, .deliver 0xA8#8 0#8, .event,
   .deliver 0xB8#8 0#8]

/-- R247 (b)'s hypotheses at the ACKed byte. -/
theorem witness_TransfersInFlight_mrDataAck :
    (runChecked 9 (start readScript)).any (fun s =>
      s.eventEnabled && s.state == .mr && decodeCondition s.srValue == .mrDataAck) = true := by decide
/-- R247 (b)'s hypotheses at the NACKed byte. -/
theorem witness_TransfersInFlight_mrDataNack :
    (runChecked 11 (start readScript)).any (fun s =>
      s.eventEnabled && s.state == .mr && decodeCondition s.srValue == .mrDataNack) = true := by decide
/-- R247 (c)'s hypotheses; the byte sent before was never written, its value is free. -/
theorem witness_TransfersInFlight_stDataAck :
    (runChecked 7 (start slaveScript)).any (fun s =>
      s.eventEnabled && s.state == .st && decodeCondition s.srValue == .stDataAck) = true := by decide
/-- R247 (a), (d)'s hypotheses: a reachable state with the event step enabled. -/
theorem witness_ContractRunsNeverSeeTheExcludedConditions : ∃ s, ContractReachable s ∧ s.eventEnabled = true := by
  have h : (runChecked 5 (start readScript)).any (fun s => s.eventEnabled) = true := by decide
  cases hr : runChecked 5 (start readScript) with
  | none => rw [hr] at h; cases h
  | some t => rw [hr] at h; exact ⟨t, (reachable_of_runChecked 5 _ t (start_reachable readScript) hr).1, h⟩

/-- A bound master with a delivery to come, for the invariants' hypotheses. -/
def invariantState : State := { master 1#16 with script := [.hostPresent 0x0900000000000000#64] }

theorem witness_EngineInvariantIsKeptByEveryStep :
    EngineInv invariantState ∧ step invariantState = .next (stepped invariantState) :=
  ⟨by constructor <;> decide, rfl⟩
theorem witness_ContractInvariantsAreKeptByEveryContractStep :
    EngineInv invariantState ∧ ContractInv invariantState ∧ RoomInv invariantState ∧ FlightInv invariantState ∧
    KeepsTransfers invariantState (stepped invariantState) ∧ ContractHolds invariantState ∧
    step invariantState = .next (stepped invariantState) := by
  refine ⟨by constructor <;> decide, ?_, ?_, ?_, keepsTransfers_of_check _ _ (by decide), contractHolds_of_check _ (by decide), rfl⟩
  · constructor
    · decide
    · decide
    · exact fun _ => .inl (by decide)
    · decide
    · decide
    · decide
    · decide
    · decide
  · exact ⟨fun _ h => absurd h (by decide), fun _ h => absurd h (by decide), fun _ h => absurd h (by decide),
      fun _ h => absurd h (by decide)⟩
  · exact ⟨by decide, by decide, by decide, fun _ => trivial, fun _ h => absurd h (by decide), fun _ h => absurd h (by decide)⟩

end Sys2Proof.Tests
end

section
/-! SUPPORT. Proofs about the state's own operations: the bits of CR and SR, the numeric encodings, the decoder's range, and
the statements about them (R11, R23, R31, R32, R76, R87, R88). -/

namespace Sys2Proof.Machine

/-! ### The bits of CR and SR (R31, R32) -/

/-- R31: CR after a control write, bit by bit. -/
theorem crAfterWrite_bits (cr v : Byte) :
    (crAfterWrite cr v).getLsbD 7 = (cr.getLsbD 7 && !v.getLsbD 7) ∧ (crAfterWrite cr v).getLsbD 6 = v.getLsbD 6 ∧
    (crAfterWrite cr v).getLsbD 5 = v.getLsbD 5 ∧ (crAfterWrite cr v).getLsbD 4 = v.getLsbD 4 ∧
    (crAfterWrite cr v).getLsbD 3 = false ∧ (crAfterWrite cr v).getLsbD 2 = v.getLsbD 2 ∧
    (crAfterWrite cr v).getLsbD 1 = false ∧ (crAfterWrite cr v).getLsbD 0 = v.getLsbD 0 := by
  simp [crAfterWrite]

/-- R31: a command with INT, STA or no bit set is handed to the BUS agent with DR as it is now. -/
theorem pendingAfter_handed (p : Option BusCommand) (v d : Byte)
    (h : v.getLsbD 7 = true ∨ v.getLsbD 5 = true ∨ v = offCmd) : pendingAfter p v d = some ⟨v, d⟩ := if_pos h

/-- A delivered status leaves SR[2:0] (R230). -/
theorem srWithStatus_reserved (sr code : Byte) : srWithStatus sr code &&& 0x04#8 = sr &&& 0x04#8 :=
  calc srWithStatus sr code &&& 0x04#8
      = (code &&& (0xF8#8 &&& 0x04#8)) ||| (sr &&& (0x07#8 &&& 0x04#8)) := by
        rw [srWithStatus, BitVec.and_or_distrib_right, BitVec.and_assoc, BitVec.and_assoc]
    _ = sr &&& 0x04#8 := by simp

/-- The prescaler field is SR[1:0] (R32). -/
theorem srWithPrescale_reserved (sr : Byte) (ps : BitVec 2) : srWithPrescale sr ps &&& 0x04#8 = sr &&& 0x04#8 := by
  revert sr ps; decide

/-- R13, R81: the address of a binding has its operation bit clear. -/
theorem busAddress_bit0 (a8 : Byte) : (busAddress a8).getLsbD 0 = false := by simp [busAddress]

/-! ### The command decoder -/

/-- R74: a word of the command port decodes to a command, never to a status. -/
theorem condition_of_decodeCommand {w : CmdWord} {i : Instr} (h : decodeCommand w = .ok i) : i.condition = none := by
  unfold decodeCommand at h
  repeat' split at h
  all_goals cases h
  all_goals rfl

/-! ### The numeric encodings (R11, R76, R87, R88) -/

/-- The number of two fields side by side. -/
theorem toNat_append_add {m n : Nat} (x : BitVec m) (y : BitVec n) : (x ++ y).toNat = x.toNat * 2 ^ n + y.toNat := by
  rw [BitVec.toNat_append, ← Nat.shiftLeft_add_eq_or_of_lt y.isLt, Nat.shiftLeft_eq]

/-- R76: ST and RESULT in the response word. -/
theorem responseWord_toNat (e : EngineState) (r : Half) :
    (responseWord e r).toNat = e.code.toNat * 65536 + r.toNat := by
  simp only [responseWord, toNat_append_add]
  simp

/-- R87: the three fields of the event record. -/
theorem eventRecord_word_toNat (t : EventType) (target r : Half) :
    (EventRecord.word ⟨t, target, r⟩).toNat = t.code.toNat * 4294967296 + target.toNat * 65536 + r.toNat := by
  simp only [EventRecord.word, toNat_append_add]
  omega

/-- R11: STATE by its number. -/
theorem EngineState.code_iff (e : EngineState) :
    (e.code = 0#3 ↔ e = .error) ∧ (e.code = 1#3 ↔ e = .idle) ∧ (e.code = 2#3 ↔ e = .mt) ∧ (e.code = 3#3 ↔ e = .mr) ∧
    (e.code = 4#3 ↔ e = .st) ∧ (e.code = 5#3 ↔ e = .sr) := by
  cases e <;> decide

/-- R9, R23: the states in flight, which are BUSY. -/
theorem EngineState.inFlight_iff (e : EngineState) :
    e.inFlight = true ↔ e = .mt ∨ e = .mr ∨ e = .st ∨ e = .sr := by
  cases e <;> decide

/-- R88: the event type by its number. -/
theorem EventType.code_iff (t : EventType) :
    (t.code = 1#8 ↔ t = .error) ∧ (t.code = 2#8 ↔ t = .writeCompleted) ∧ (t.code = 3#8 ↔ t = .readCompleted) := by
  cases t <;> decide

/-! ### The statements -/

/-- Settles O30: the bits of CR after the write, and what PENDING takes. -/
theorem controlWriteFollowsTheBitRules : Obligations.ControlWriteFollowsTheBitRules := by
  unfold Obligations.ControlWriteFollowsTheBitRules
  intro v s
  obtain ⟨h7, h6, h5, h4, h3, h2, h1, h0⟩ := crAfterWrite_bits s.cr v
  exact ⟨h7, h6, h5, h4, h3, h2, h1, h0, pendingAfter_handed s.pending v s.dr, pendingAfter_idle s.pending s.dr⟩

/-- Settles O34: STATE and the event type by their codes, the two words as sums of their fields. -/
theorem encodingsOfStateResponseAndEvent : Obligations.EncodingsOfStateResponseAndEvent := by
  unfold Obligations.EncodingsOfStateResponseAndEvent
  intro e r target t
  obtain ⟨h0, h1, h2, h3, h4, h5⟩ := e.code_iff
  exact ⟨h0, h1, h2, h3, h4, h5, e.inFlight_iff, responseWord_toNat e r, eventRecord_word_toNat t target r, t.code_iff⟩

end Sys2Proof.Machine
end

section
/-! SUPPORT. The state after reset (R39): the reset table, and the four invariants there. In RoomInv and in half of FlightInv
nothing is asked, because nothing is bound. -/

namespace Sys2Proof.Machine

/-- Settles O1, by evaluating the reset state. -/
theorem resetMatchesTheResetTable : Obligations.ResetMatchesTheResetTable := by
  unfold Obligations.ResetMatchesTheResetTable
  decide

theorem engineInv_reset : EngineInv State.reset := by constructor <;> decide

theorem contractInv_reset : ContractInv State.reset where
  offUnbound := by decide
  transferBusy := by decide
  freeEvent h := absurd h (by decide)
  startFresh := by decide
  waitingEvent := by decide
  waitingLast := by decide
  errorCount := by decide
  errorEvent := by decide

theorem roomInv_reset : RoomInv State.reset where
  readWaits h := absurd rfl h
  readAnswers h := absurd rfl h
  transmitWaits h := absurd rfl h
  transmitAnswers h := absurd rfl h

theorem flightInv_reset : FlightInv State.reset where
  unboundIdle := by decide
  idleEvent := by decide
  staleIdle := by decide
  mode h := absurd rfl h
  direction h := absurd rfl h
  event h := absurd rfl h

/-- Settles O54: one lemma for each invariant. -/
theorem invariantsHoldAtReset : Obligations.InvariantsHoldAtReset :=
  ⟨engineInv_reset, contractInv_reset, roomInv_reset, flightInv_reset⟩

end Sys2Proof.Machine
end

section
/-! SUPPORT. The engine's invariant is kept by every reaction, every command and every turn. A reaction needs a bound engine,
which the masked interrupt ensures (R257). -/

namespace Sys2Proof.Machine

/-! ### The reactions -/

/-- R266: the registers of the binding, which a reaction leaves, but for AR, which it may disarm (R215). -/
structure ReactionFrame (s t : State) : Prop where
  role : t.role = s.role
  dev : t.dev = s.dev
  addr : t.addr = s.addr
  sr : t.sr = s.sr
  target : t.target = s.target
  ar : t.ar = s.ar ∨ t.ar = 0#8

theorem stop_frame (s : State) (e : EngineState) (ty : EventType) : ReactionFrame s (stop e ty s) := by
  constructor <;> simp [stop]

theorem srDecide_frame {s t : State} (h : ReactionFrame s t) : ReactionFrame s (srDecide t) := { h with }

theorem mtNext_frame (s : State) : ReactionFrame s (mtNext s) := by
  unfold mtNext mtSend
  split <;> constructor <;> simp [stop]

theorem storeByte_frame (s : State) : ReactionFrame s (storeByte s) := by constructor <;> simp

theorem slaveLoad_frame (b : Segment) (e : EngineState) (s : State) : ReactionFrame s (slaveLoad b e s) := by
  constructor <;> simp

theorem stNext_frame {s t : State} (h : ReactionFrame s t) : ReactionFrame s (stNext t) := by
  obtain ⟨hrole, hdev, haddr, hsr, htarget, har⟩ := h
  constructor <;> simp [stNext, *]

theorem slaveWriteDone_frame (s : State) : ReactionFrame s (slaveWriteDone s) := by
  rw [slaveWriteDone_eq]
  constructor <;> simp

/-- What the reaction to any condition can do, and the registers it leaves. -/
theorem reaction_of_exec {i : Instr} {s t : State} (hc : i.condition.isSome = true) (h : exec i s = .next t) :
    Reaction s t ∧ ReactionFrame s t := by
  have rfl_frame : ReactionFrame s s := ⟨rfl, rfl, rfl, rfl, rfl, .inl rfl⟩
  cases i with
  | start | repStart => cases h; exact ⟨sendAddress_reaction s, { rfl_frame with }⟩
  | mtSlaAck | mtDataAck => cases h; exact ⟨mtNext_reaction s, mtNext_frame s⟩
  | mtDataNack =>
    cases h; exact ⟨stop_reaction s s _ _ (.inl rfl) id rfl rfl rfl nofun, stop_frame s _ _⟩
  | busError | mtSlaNack | mrSlaNack => cases h; exact ⟨failWithStop_reaction s, { stop_frame _ _ _ with }⟩
  | arbLost => cases h; exact ⟨arbLost_reaction s, by constructor <;> simp⟩
  | mrSlaAck => cases h; exact ⟨mrDecide_reaction s, { rfl_frame with }⟩
  | mrDataAck => cases h; exact ⟨mrStore_reaction s, { storeByte_frame s with }⟩
  | mrDataNack =>
    cases h
    exact ⟨stop_reaction s _ _ _ (.inl rfl) (storeByte_memory_wf s) (by simp) (by simp) (by simp) nofun,
      by constructor <;> simp [stop]⟩
  | srSlaAck | srArbLostSlaAck | srGcallAck | srArbLostGcallAck =>
    cases h; exact ⟨srAddressed_reaction s, { slaveLoad_frame s.slvWr .sr s with }⟩
  | srDataAck | srGcallDataAck => cases h; exact ⟨srStore_reaction s, { storeByte_frame s with }⟩
  | srDataNack | srGcallDataNack | srStop => cases h; exact ⟨slaveWriteDone_reaction s, slaveWriteDone_frame s⟩
  | stSlaAck | stArbLostSlaAck =>
    cases h; exact ⟨stAddressed_reaction s, stNext_frame (slaveLoad_frame _ _ s)⟩
  | stDataAck => cases h; exact ⟨stNext_reaction s, stNext_frame rfl_frame⟩
  | stDataNack | stLastData => cases h; exact ⟨stDone_reaction s, { rfl_frame with }⟩
  | unmappedD0 | unmappedD8 | unmappedE0 | unmappedE8 | unmappedF0 =>
    cases h; exact ⟨resetToIdle_reaction s, { rfl_frame with }⟩
  | noInfo =>
    cases h; exact ⟨⟨.inl rfl, id, .inl rfl, .inl rfl, .inl rfl⟩, rfl_frame⟩
  | _ => cases hc

section
variable {s t : State}

/-- A reaction leaves the interrupt unmasked, and the bits of CR that read 0 (R31, R84). -/
theorem Reaction.control_bits (hr : Reaction s t) (hz : s.cr &&& 0x0A#8 = 0#8) (hon : s.en = true ∧ s.ie = true) :
    t.cr &&& 0x0A#8 = 0#8 ∧ t.en = true ∧ t.ie = true := by
  obtain rfl | h | h | h := hr.control
  · exact ⟨hz, hon⟩
  all_goals simp [State.en, State.ie, h]

/-- Every reaction of a bound engine keeps the engine's invariant. -/
theorem EngineInv.of_reaction (hi : EngineInv s) (hbound : s.role ≠ .none) (hr : Reaction s t)
    (hf : ReactionFrame s t) : EngineInv t := by
  obtain ⟨hrole, hdev, haddr, hsr, htarget, har⟩ := hf
  obtain ⟨hzero, hon⟩ := hr.control_bits hi.crReserved (hi.boundEnabled hbound)
  have hstate : ∀ e, e = .mt ∨ e = .mr → t.state = e → s.state = e := by
    intro e he h
    obtain h' | h' | h' | h' | h' := hr.state
    · exact h' ▸ h
    all_goals rw [h] at h'; subst h'; simp at he
  have hunbound : t.role ≠ .none := hrole ▸ hbound
  exact {
    memory := hr.memory hi.memory
    crReserved := hzero
    srReserved := hsr ▸ hi.srReserved
    devWrite := hdev ▸ hi.devWrite
    masterDisarmed := fun h => har.elim (fun ha => ha.trans (hi.masterDisarmed (hrole ▸ h))) id
    slaveAddress := fun h => by
      rcases har with ha | ha
      · rw [ha, hdev]; exact hi.slaveAddress (hrole ▸ h)
      · exact .inr ha
    boundEnabled := fun _ => hon
    unboundMasked := fun h => absurd h hunbound
    unboundReleased := fun h => absurd h hunbound
    callbackTarget := fun h => by
      rw [htarget]
      rcases hr.callback with hc | ⟨_, ht⟩
      · exact hi.callbackTarget (hc ▸ h)
      · exact ht
    writeAddress := fun h => by rw [haddr, hdev]; exact hi.writeAddress (hstate _ (.inl rfl) h)
    readAddress := fun h => by rw [haddr, hdev]; exact hi.readAddress (hstate _ (.inr rfl) h)
    records := by
      obtain hq | ⟨ht, e, v, hq, hv⟩ := hr.record <;> rw [hq]
      · exact hi.records
      · intro r hmem
        rcases List.mem_append.1 hmem with hold | hnew
        · exact hi.records r hold
        · cases List.mem_singleton.1 hnew
          exact ⟨ht, hv⟩ }

/-! ### The commands -/

/-- R76: an answer writes the port alone. -/
theorem EngineInv.respond (hi : EngineInv s) (r : Half) : EngineInv (respond r s) := { hi with }

/-- R31: a change of CR that keeps EN, IE and the bits that read 0. -/
theorem EngineInv.withControl (hi : EngineInv s) (c : Byte) (hzero : c &&& 0x0A#8 = 0#8)
    (hen : c.getLsbD 2 = s.en) (hie : c.getLsbD 0 = s.ie) : EngineInv { s with cr := c } :=
  { hi with
    crReserved := hzero
    boundEnabled := fun h => by simpa only [State.en, State.ie, hen, hie] using hi.boundEnabled h
    unboundMasked := fun h => by simpa only [State.en, State.ie, hen, hie] using hi.unboundMasked h }

/-- R141, R203: a binding of an unbound engine. -/
theorem EngineInv.bind (hi : EngineInv s) (hu : s.role = .none) {role : Role} {dev ar : Byte} (target : Half)
    (hrole : role ≠ .none) (hdev : dev.getLsbD 0 = false) (hmaster : role = .master → ar = 0#8)
    (hslave : role = .slave → ar = dev) : EngineInv (bind role dev ar target s) := by
  obtain ⟨_, hen, hie, hzero⟩ := crAfterWrite_idle_bits s.cr
  have hdue : s.callbackDue ≠ true := by simp [(hi.unboundReleased hu).2]
  exact {
    memory := hi.memory
    crReserved := hzero
    srReserved := (srWithPrescale_reserved s.sr s.params.prescale).trans hi.srReserved
    devWrite := hdev
    masterDisarmed := hmaster
    slaveAddress := fun h => .inl (hslave h)
    boundEnabled := fun _ => ⟨hen, hie⟩
    unboundMasked := fun h => absurd h hrole
    unboundReleased := fun h => absurd h hrole
    callbackTarget := fun h => absurd h hdue
    writeAddress := nofun
    readAddress := nofun
    records := hi.records }

theorem execBegin_inv (hi : EngineInv s) {a8 : Byte} {target : Half} (h : execBegin a8 target s = .next t) :
    EngineInv t := by
  unfold execBegin at h
  split at h
  · cases h; exact hi.respond _
  · split at h <;> cases h
    next => exact hi.respond _
    next hu =>
      exact (hi.bind (role := .master) (of_not_not hu) target nofun (busAddress_bit0 a8) (fun _ => rfl) nofun).respond _

theorem execSbegin_inv (hi : EngineInv s) {a8 : Byte} {target : Half} (h : execSbegin a8 target s = .next t) :
    EngineInv t := by
  unfold execSbegin at h
  split at h
  · cases h; exact hi.respond _
  · split at h <;> cases h
    next => exact hi.respond _
    next hu =>
      have hb : EngineInv (Machine.bind .slave (busAddress a8) (busAddress a8) target s) :=
        hi.bind (of_not_not hu) target nofun (busAddress_bit0 a8) nofun (fun _ => rfl)
      exact { hb with unboundReleased := nofun, callbackTarget := nofun }

/-- R142: END leaves the engine unbound, its interrupt masked and no call-back due. -/
theorem execEnd_inv (hi : EngineInv s) (h : execEnd s = .next t) : EngineInv t := by
  unfold execEnd at h
  split at h
  · cases h; exact hi.respond _
  · split at h <;> cases h
    · exact hi
    · obtain ⟨_, hen, hie, hzero⟩ := crAfterWrite_off_bits s.cr
      exact {
        hi with
        crReserved := hzero
        masterDisarmed := nofun
        slaveAddress := nofun
        boundEnabled := fun h => absurd rfl h
        unboundMasked := fun _ => ⟨hen, hie⟩
        unboundReleased := fun _ => ⟨rfl, rfl⟩
        callbackTarget := nofun }

/-- R143: an accepted request of a master. -/
theorem EngineInv.requestAccept (hi : EngineInv s) (hm : s.role = .master) (op : Bool) :
    EngineInv (requestAccept op s) where
  memory := by simpa using hi.memory
  crReserved := by simp
  srReserved := by simpa [Machine.requestAccept] using hi.srReserved
  devWrite := by simpa using hi.devWrite
  masterDisarmed := by simpa [Machine.requestAccept] using hi.masterDisarmed
  slaveAddress := by simp [hm]
  boundEnabled := by simp [State.en, State.ie]
  unboundMasked := by simp [hm]
  unboundReleased := by simp [hm]
  callbackTarget := by simpa [Machine.requestAccept] using hi.callbackTarget
  writeAddress := by cases op <;> simp [requestAddress]
  readAddress := by cases op <;> simp [requestAddress]
  records := by simpa using hi.records

/-- R143: a request, refused or accepted, whose builder kept the registers of the binding. -/
theorem EngineInv.request (hi : EngineInv s) {built : State} (hb : EngineInv built) (hrole : built.role = s.role)
    (op : Bool) (total : Nat) : EngineInv (request op total built s) := by
  unfold Machine.request
  split
  next => exact hi.respond _
  next hok =>
    have hm : s.role = .master := of_not_not fun hne => hok ((requestRefused_iff total s).2 (.inl hne))
    exact hb.requestAccept (hrole.trans hm) op

theorem execRearm_inv (hi : EngineInv s) (h : execRearm s = .next t) : EngineInv t := by
  unfold execRearm at h
  split at h <;> cases h
  next => exact { hi with unboundReleased := fun hu => ⟨(hi.unboundReleased hu).1, rfl⟩, callbackTarget := nofun }
  next hslave =>
    have hslave : s.role = .slave := of_not_not hslave
    exact {
      hi with
      masterDisarmed := fun hm => nomatch hslave.symm.trans hm
      slaveAddress := fun _ => .inl rfl
      unboundReleased := fun hu => nomatch hslave.symm.trans hu
      callbackTarget := nofun }

/-- Every command keeps the engine's invariant. -/
theorem EngineInv.of_command (hi : EngineInv s) {i : Instr} (hc : i.condition = none) (h : exec i s = .next t) :
    EngineInv t := by
  cases i with
  | beginCmd a8 target => exact execBegin_inv hi h
  | sbegin a8 target => exact execSbegin_inv hi h
  | endCmd => exact execEnd_inv hi h
  | wreq buf size => cases h; exact hi.request (built := buildRaw buf size s) { hi with } rfl _ _
  | wreq1 header buf size => cases h; exact hi.request (built := buildHeader1 header buf size s) { hi with } rfl _ _
  | wreq2 header buf size => cases h; exact hi.request (built := buildHeader2 header buf size s) { hi with } rfl _ _
  | rreq buf size =>
    simp only [exec, execRreq] at h
    split at h <;> cases h
    · exact hi.respond _
    · exact hi.request (built := buildRaw buf size s) { hi with } rfl _ _
  | awaitCmd m =>
    simp only [exec, execAwait] at h
    split at h <;> cases h
    · exact hi
    · exact hi.respond _
  | poll => cases h; exact hi.respond _
  | setrb buf size | setwb buf size =>
    simp only [exec, execSetrb, execSetwb] at h
    split at h
    · cases h; exact hi.respond _
    · split at h <;> cases h <;> exact { hi with }
  | rearm => exact execRearm_inv hi h
  | _ => cases hc

/-! ### The turns -/

theorem commandStep_inv (hi : EngineInv s) (h : commandStep s = .next t) : EngineInv t := by
  unfold commandStep runCommand at h
  split at h
  · split at h
    next i hd => exact hi.of_command (condition_of_decodeCommand hd) h
    next => cases h; exact hi.respond _
  all_goals cases h; exact hi

/-- R257: an event step runs only while the engine is bound. -/
theorem EngineInv.bound_of_enabled (hi : EngineInv s) (h : s.eventEnabled = true) : s.role ≠ .none := fun hu => by
  simp [State.eventEnabled, hi.unboundMasked hu] at h

theorem eventStep_inv (hi : EngineInv s) (h : eventStep s = .next t) : EngineInv t := by
  unfold eventStep enterEvent at h
  by_cases he : s.eventEnabled = true
  · rw [if_pos he] at h
    obtain ⟨hr, hf⟩ := reaction_of_exec (by simp [condition_decodeStatus]) h
    exact hi.of_reaction (hi.bound_of_enabled he) hr hf
  · rw [if_neg he] at h
    cases h; exact hi

theorem EngineInv.memWrite (hi : EngineInv s) (a : Ptr) (b : Byte) : EngineInv (memWrite a b s) :=
  { hi with memory := Memory_wf_write _ _ _ hi.memory }

theorem EngineInv.deliver (hi : EngineInv s) (code data : Byte) : EngineInv (deliver code data s) := by
  unfold Machine.deliver
  split
  · obtain ⟨_, hen, hie, hzero⟩ := crWithInt_bits s.cr
    have hcr : EngineInv { s with cr := crWithInt s.cr } := hi.withControl _ (hzero.trans hi.crReserved) hen hie
    exact { hcr with srReserved := (srWithStatus_reserved s.sr code).trans hi.srReserved }
  · exact hi

theorem EngineInv.finish (hi : EngineInv s) : EngineInv (finish s) := by
  obtain ⟨_, hen, hie, hzero⟩ := crWithoutSto_bits s.cr
  have hcr : EngineInv { s with cr := crWithoutSto s.cr } := hi.withControl _ (hzero.trans hi.crReserved) hen hie
  unfold Machine.finish
  split
  · exact hi
  next p _ =>
    split
    · by_cases hp : p.cmd = stopCmd
      · rw [if_pos hp]; exact { hcr with }
      · rw [if_neg hp]; exact { hi with }
    · exact hi

theorem EngineInv.dispatch (hi : EngineInv s) : EngineInv (dispatch s) := by
  unfold Machine.dispatch
  split
  next r rest _ hq => exact { hi with records := fun r' h => hi.records r' (by rw [hq]; exact List.mem_cons_of_mem r h) }
  next => exact hi

theorem callRun_inv (hi : EngineInv s) {w : CmdWord} (h : callRun w s = .next t) : EngineInv t := by
  obtain ⟨u, hu, rfl⟩ := callRun_next w s t h
  have hu' : EngineInv u := commandStep_inv (s := { swapPorts s with port := .presented w }) { hi with } hu
  exact { hu' with }

theorem callCommand_inv (hi : EngineInv s) {w : CmdWord} (h : callCommand w s = .next t) : EngineInv t := by
  unfold callCommand at h
  split at h
  · exact callRun_inv hi h
  · cases h; exact hi

theorem callReturn_inv (hi : EngineInv s) (h : callReturn s = .next t) : EngineInv t := by
  unfold callReturn at h
  split at h
  · exact callRun_inv (s := { s with onRequest := none }) { hi with } h
  · cases h; exact hi

theorem takeTurn_inv (hi : EngineInv s) {turn : Turn} (h : takeTurn turn s = .next t) : EngineInv t := by
  cases turn with
  | reset => cases h; exact { engineInv_reset with memory := hi.memory }
  | hostPresent w => cases h; unfold hostPresent; split; exacts [{ hi with }, hi]
  | hostStore a b => cases h; unfold hostStore; split; exacts [hi.memWrite a b, hi]
  | command => exact commandStep_inv hi h
  | event => exact eventStep_inv hi h
  | deliver code data => cases h; exact hi.deliver code data
  | finish => cases h; exact hi.finish
  | dispatch => cases h; exact hi.dispatch
  | callCommand w => exact callCommand_inv hi h
  | callStore a b => cases h; unfold callStore; split; exacts [hi.memWrite a b, hi]
  | callReturn => exact callReturn_inv hi h

end

/-- Settles O55: no turn left keeps the state; else the turn keeps the invariant, which does not speak of the script. -/
theorem engineInvariantIsKeptByEveryStep : Obligations.EngineInvariantIsKeptByEveryStep := by
  unfold Obligations.EngineInvariantIsKeptByEveryStep
  intro s t hi h
  unfold step at h
  split at h
  next => cases h; exact hi
  next turn rest _ => exact takeTurn_inv (s := { s with script := rest }) { hi with } h

end Sys2Proof.Machine
end

section
/-! SUPPORT. A transfer in flight and the commands: what they leave of it (R25, R63), and that a command that holds is ended
only by the event step or a reset (R160, R282). -/

namespace Sys2Proof.Machine

/-! ### What a command can do to a transfer in flight (R25, R142, R204) -/

/-- R9: a transfer in flight is not in IDLE. -/
theorem busy_not_idle {s : State} (h : s.busy = true) : s.state ≠ .idle := fun he => by
  rw [State.busy, he] at h; cases h

/-- R143: in flight no request is accepted. -/
theorem request_of_busy {s : State} (h : s.busy = true) (op : Bool) (total : Nat) (built : State) :
    request op total built s = respond minusOne s :=
  if_pos ((requestRefused_iff total s).2 (.inr (.inl (busy_not_idle h))))

/-- What a command does while an engine is bound and a transfer is in flight: it holds, it answers and changes nothing, END
unbinds, or REARM writes CALLBACK_DUE and AR. -/
theorem exec_command_of_busy {i : Instr} {s t : State} (hc : i.condition = none) (hbound : s.role ≠ .none)
    (hbusy : s.busy = true) (h : exec i s = .next t) :
    t = s ∨ (∃ r, t = respond r s) ∨
    (∃ r, t = respond r { crWrite offCmd s with role := .none, target := 0#16, callbackDue := false }) ∨
    (∃ r a, t = respond r { s with callbackDue := false, ar := a }) := by
  cases i with
  | beginCmd a8 target | sbegin a8 target =>
    simp only [exec, execBegin, execSbegin, if_pos hbound] at h
    split at h <;> cases h <;> exact .inr (.inl ⟨_, rfl⟩)
  | endCmd =>
    simp only [exec, execEnd, if_neg hbound] at h
    split at h <;> cases h
    · exact .inl rfl
    · exact .inr (.inr (.inl ⟨_, rfl⟩))
  | wreq _ _ | wreq1 _ _ _ | wreq2 _ _ _ => cases h; exact .inr (.inl ⟨_, request_of_busy hbusy _ _ _⟩)
  | rreq buf size =>
    simp only [exec, execRreq, request_of_busy hbusy] at h
    split at h <;> cases h <;> exact .inr (.inl ⟨_, rfl⟩)
  | awaitCmd m => simp only [exec, execAwait, if_pos hbusy] at h; cases h; exact .inl rfl
  | poll => cases h; exact .inr (.inl ⟨_, rfl⟩)
  | setrb buf size | setwb buf size =>
    simp only [exec, execSetrb, execSetwb, if_pos hbusy] at h; cases h; exact .inr (.inl ⟨_, rfl⟩)
  | rearm =>
    simp only [exec, execRearm] at h
    split at h <;> cases h <;> exact .inr (.inr (.inr ⟨_, _, rfl⟩))
  | _ => cases hc

/-! ### Commands that hold (R142, R148, R160) -/

/-- R160: a HOST's command that holds: END with a completion target, or AWAIT, while a transfer is in flight. -/
def Holds (i : Instr) (s : State) : Prop :=
  s.busy = true ∧ ((i = .endCmd ∧ s.role ≠ .none ∧ s.target ≠ 0#16) ∨ ∃ m, i = .awaitCmd m)

/-- What `Holds` says of a command: executing it changes nothing. -/
theorem Holds.exec_eq {i : Instr} {s : State} (h : Holds i s) : exec i s = .next s := by
  obtain ⟨hbusy, ⟨rfl, hbound, htarget⟩ | ⟨m, rfl⟩⟩ := h
  · simp [exec, execEnd, hold, hbound, htarget, hbusy]
  · simp [exec, execAwait, hold, hbusy]

/-- R76: an answer takes the presented word off the port. -/
theorem respond_ne_of_presented {s u : State} {w : CmdWord} (hp : s.port = .presented w) (r : Half) : respond r u ≠ s :=
  fun he => by rw [← he] at hp; cases hp

/-- R160: a presented command that changes nothing has not answered, so it holds. -/
theorem holds_of_exec_eq {i : Instr} {s : State} {w : CmdWord} (hc : i.condition = none) (hp : s.port = .presented w)
    (h : exec i s = .next s) : Holds i s := by
  have answered : ∀ r u, Host.Outcome.next (respond r u) = (.next s : Out) → Holds i s := fun r u he =>
    absurd (Host.Outcome.next.inj he) (respond_ne_of_presented hp r)
  cases i with
  | beginCmd a8 target =>
    simp only [exec, execBegin] at h
    repeat' split at h
    all_goals exact answered _ _ h
  | sbegin a8 target =>
    simp only [exec, execSbegin] at h
    repeat' split at h
    all_goals exact answered _ _ h
  | endCmd =>
    simp only [exec, execEnd] at h
    split at h
    · exact answered _ _ h
    next hbound =>
      split at h
      next hheld => exact ⟨hheld.2, .inl ⟨rfl, hbound, hheld.1⟩⟩
      next => exact answered _ _ h
  | wreq buf size | wreq1 header buf size | wreq2 header buf size =>
    simp only [exec, execWreq, execWreq1, execWreq2, request] at h
    split at h <;> exact answered _ _ h
  | rreq buf size =>
    simp only [exec, execRreq, request] at h
    repeat' split at h
    all_goals exact answered _ _ h
  | awaitCmd m =>
    simp only [exec, execAwait] at h
    split at h
    next hbusy => exact ⟨hbusy, .inr ⟨m, rfl⟩⟩
    next => exact answered _ _ h
  | poll => exact answered _ _ h
  | setrb buf size | setwb buf size =>
    simp only [exec, execSetrb, execSetwb] at h
    repeat' split at h
    all_goals exact answered _ _ h
  | rearm =>
    simp only [exec, execRearm] at h
    split at h <;> exact answered _ _ h
  | _ => cases hc

/-! ### What the other turns leave of a held command -/

/-- The fields that decide whether a presented command holds. -/
structure HoldFrame (s t : State) : Prop where
  state : t.state = s.state
  role : t.role = s.role
  target : t.target = s.target
  port : t.port = s.port

theorem HoldFrame.refl (s : State) : HoldFrame s s := ⟨rfl, rfl, rfl, rfl⟩

theorem Holds.of_frame {i : Instr} {s t : State} (h : Holds i s) (hf : HoldFrame s t) : Holds i t := by
  simpa only [Holds, State.busy, hf.state, hf.role, hf.target] using h

theorem deliver_holdFrame (code data : Byte) (s : State) : HoldFrame s (deliver code data s) := by
  unfold deliver; split <;> exact ⟨rfl, rfl, rfl, rfl⟩

theorem finish_holdFrame (s : State) : HoldFrame s (finish s) := by
  unfold finish
  split
  · exact .refl s
  · split <;> exact ⟨rfl, rfl, rfl, rfl⟩

theorem dispatch_holdFrame (s : State) : HoldFrame s (dispatch s) := by
  unfold dispatch; split <;> exact ⟨rfl, rfl, rfl, rfl⟩

theorem callStore_holdFrame (a : Ptr) (b : Byte) (s : State) : HoldFrame s (callStore a b s) := by
  unfold callStore; split <;> exact ⟨rfl, rfl, rfl, rfl⟩

/-- R204: REARM writes CALLBACK_DUE, AR and the port. -/
theorem execRearm_cases {s t : State} (h : execRearm s = .next t) :
    ∃ r a, t = respond r { s with callbackDue := false, ar := a } := by
  unfold execRearm at h
  split at h <;> cases h <;> exact ⟨_, _, rfl⟩

/-- R222: the REARM of the call-back's return is answered on the call-back's own port (log entry 14). -/
theorem callReturn_holdFrame {s t : State} (h : callReturn s = .next t) : HoldFrame s t := by
  unfold callReturn at h
  split at h
  · obtain ⟨u, hu, rfl⟩ := callRun_next _ _ t h
    obtain ⟨r, a, rfl⟩ := execRearm_cases hu
    exact ⟨rfl, rfl, rfl, rfl⟩
  · cases h; exact .refl s

/-- R222: in flight the call-back issues no command. -/
theorem callCommand_of_busy {s : State} (h : s.busy = true) (w : CmdWord) : callCommand w s = .next s := by
  simp [callCommand, h]

/-- R160: the command turn of a held command changes nothing. -/
theorem commandStep_of_holds {i : Instr} {w : CmdWord} {s : State} (hp : s.port = .presented w)
    (hd : decodeCommand w = .ok i) (h : Holds i s) : commandStep s = .next s := by
  simp only [commandStep, hp, runCommand, hd, h.exec_eq]

/-- While a HOST's command holds, no turn but the event step and the reset moves what it waits for. -/
theorem takeTurn_holdFrame {i : Instr} {w : CmdWord} {s t : State} {turn : Turn} (hp : s.port = .presented w)
    (hd : decodeCommand w = .ok i) (hh : Holds i s) (hevent : turn ≠ .event) (hreset : turn ≠ .reset)
    (h : takeTurn turn s = .next t) : HoldFrame s t := by
  cases turn with
  | reset => exact absurd rfl hreset
  | event => exact absurd rfl hevent
  | hostPresent v => cases h; simpa [hostPresent, portFree, hp] using HoldFrame.refl s
  | hostStore a b => cases h; simpa [hostStore, portFree, hp] using HoldFrame.refl s
  | command =>
    rw [takeTurn, commandStep_of_holds hp hd hh] at h
    cases h; exact .refl s
  | deliver code data => cases h; exact deliver_holdFrame code data s
  | finish => cases h; exact finish_holdFrame s
  | dispatch => cases h; exact dispatch_holdFrame s
  | callCommand v =>
    rw [takeTurn, callCommand_of_busy hh.1] at h
    cases h; exact .refl s
  | callStore a b => cases h; exact callStore_holdFrame a b s
  | callReturn => exact callReturn_holdFrame h

/-- The same of a step: the turn it takes is the first of the script. -/
theorem step_holdFrame {i : Instr} {w : CmdWord} {s t : State} (hp : s.port = .presented w)
    (hd : decodeCommand w = .ok i) (hh : Holds i s) (hevent : ∀ rest, s.script ≠ .event :: rest)
    (hreset : ∀ rest, s.script ≠ .reset :: rest) (h : step s = .next t) : HoldFrame s t := by
  unfold step at h
  split at h
  next => cases h; exact .refl s
  next turn rest hs =>
    have hf := takeTurn_holdFrame (s := { s with script := rest }) hp hd hh (fun he => hevent rest (he ▸ hs))
      (fun he => hreset rest (he ▸ hs)) h
    exact { hf with }

/-- Settles O49: what a command can do in flight; and a held command waits for fields that the other turns leave. -/
theorem commandsKeepTheRegistersOfABoundTransfer : Obligations.CommandsKeepTheRegistersOfABoundTransfer := by
  unfold Obligations.CommandsKeepTheRegistersOfABoundTransfer
  constructor
  · intro i s t hc hbound hbusy h
    obtain rfl | ⟨r, rfl⟩ | ⟨r, rfl⟩ | ⟨r, a, rfl⟩ := exec_command_of_busy hc hbound hbusy h
    all_goals exact ⟨rfl, rfl, rfl, rfl, rfl, rfl, rfl, rfl, rfl, rfl⟩
  · intro i w s t hp hd h hevent hreset hs
    have hh : Holds i s := holds_of_exec_eq (condition_of_decodeCommand hd) hp h
    have hf : HoldFrame s t := step_holdFrame hp hd hh hevent hreset hs
    exact ⟨hf.port.trans hp, (hh.of_frame hf).exec_eq⟩

end Sys2Proof.Machine
end

section
/-! SUPPORT. The data space: what an engine read and an engine write do (R52 to R54), and which instructions store a byte
(R53, R180, R181, R210, R211). -/

namespace Sys2Proof.Machine

/-! ### Engine reads (R52, R54) -/

/-- R54: HDR[0] shows at HDR_ADDR. -/
theorem memRead_hdrAddr {a : Ptr} {s : State} (h : a = s.params.hdrAddr) : memRead a s = s.hdr0 := if_pos h

/-- R54: HDR[1] shows at HDR_ADDR + 1. -/
theorem memRead_hdrAddr_succ {a : Ptr} {s : State} (h0 : a ≠ s.params.hdrAddr) (h1 : a = s.params.hdrAddr + 1#16) :
    memRead a s = s.hdr1 := (if_neg h0).trans (if_pos h1)

/-- R52: outside the header window an engine read gives the data space's byte. -/
theorem memRead_outside {a : Ptr} {s : State} (h0 : a ≠ s.params.hdrAddr) (h1 : a ≠ s.params.hdrAddr + 1#16) :
    memRead a s = s.dataByte a := (if_neg h0).trans (if_neg h1)

/-- Settles O33: the three cases of a read; a write changes its own byte of the data space and no other. -/
theorem dataSpaceReadsWritesAndTheHeaderWindow : Obligations.DataSpaceReadsWritesAndTheHeaderWindow := by
  unfold Obligations.DataSpaceReadsWritesAndTheHeaderWindow
  intro s a b v
  exact ⟨memRead_hdrAddr, memRead_hdrAddr_succ, memRead_outside, dataByte_memWrite_same a v s,
    dataByte_memWrite_other a b v s, memWrite_hdr0 a v s, memWrite_hdr1 a v s, Memory_wf_write s.mem a v⟩

/-! ### The shared bodies that leave the data space -/

@[simp] theorem stop_mem (e : EngineState) (ty : EventType) (s : State) : (stop e ty s).mem = s.mem := by simp [stop]

@[simp] theorem failWithStop_mem (s : State) : (failWithStop s).mem = s.mem := by simp [failWithStop]

/-- R175: the transmitter reads the data space and stores nothing. -/
@[simp] theorem mtNext_mem (s : State) : (mtNext s).mem = s.mem := by unfold mtNext mtSend; split <;> simp

@[simp] theorem slaveWriteDone_mem (s : State) : (slaveWriteDone s).mem = s.mem := by simp [slaveWriteDone_eq]

@[simp] theorem stNext_mem (s : State) : (stNext s).mem = s.mem := by simp [stNext]

/-- R143: a request stores nothing when its builder stores nothing. -/
theorem request_mem {built s : State} (h : built.mem = s.mem) (op : Bool) (total : Nat) :
    (request op total built s).mem = s.mem := by
  unfold request
  split
  · rfl
  · rw [requestAccept_mem, h]

/-! ### Which instructions store (R53) -/

/-- R266: no command stores a byte. -/
theorem exec_command_mem {i : Instr} {s t : State} (hc : i.condition = none) (h : exec i s = .next t) :
    t.mem = s.mem := by
  cases i with
  | beginCmd _ _ | sbegin _ _ | endCmd | awaitCmd _ | setrb _ _ | setwb _ _ =>
    simp only [exec, execBegin, execSbegin, execEnd, execAwait, execSetrb, execSetwb] at h
    repeat' split at h
    all_goals cases h; rfl
  | wreq _ _ | wreq1 _ _ _ | wreq2 _ _ _ => cases h; refine request_mem ?_ _ _; rfl
  | rreq buf size =>
    simp only [exec, execRreq] at h
    split at h <;> cases h
    · rfl
    · refine request_mem ?_ _ _; rfl
  | poll => cases h; rfl
  | rearm => obtain ⟨r, a, rfl⟩ := execRearm_cases h; rfl
  | _ => cases hc

/-- A reaction that stores no received byte leaves the data space. -/
theorem exec_reaction_mem {i : Instr} {s t : State} (hc : i.condition.isSome = true) (hs : storesByte i = false)
    (h : exec i s = .next t) : t.mem = s.mem := by
  cases i with
  | start | repStart | mrSlaAck | stDataNack | stLastData => cases h; rfl
  | mtSlaAck | mtDataAck => cases h; exact mtNext_mem s
  | mtDataNack => cases h; exact stop_mem _ _ s
  | busError | mtSlaNack | mrSlaNack => cases h; exact failWithStop_mem s
  | arbLost => cases h; exact push_mem _ _
  | srSlaAck | srArbLostSlaAck | srGcallAck | srArbLostGcallAck => cases h; exact slaveLoad_mem s.slvWr .sr s
  | srDataNack | srGcallDataNack | srStop => cases h; exact slaveWriteDone_mem s
  | stSlaAck | stArbLostSlaAck => cases h; exact (stNext_mem _).trans (slaveLoad_mem s.slvRd .st s)
  | stDataAck => cases h; exact stNext_mem s
  | unmappedD0 | unmappedD8 | unmappedE0 | unmappedE8 | unmappedF0 | noInfo => cases h; rfl
  | mrDataAck | mrDataNack | srDataAck | srGcallDataAck => cases hs
  | _ => cases hc

/-- R180, R181, R210, R211: the four receive reactions leave the data space as the guarded store does. -/
theorem exec_receive_mem {i : Instr} {s t : State} (hs : storesByte i = true) (h : exec i s = .next t) :
    t.mem = (storeByte s).mem := by
  cases i with
  | mrDataAck | srDataAck | srGcallDataAck => cases h; rfl
  | mrDataNack => cases h; exact stop_mem _ _ (storeByte s)
  | _ => cases hs

/-- R53: every instruction but the four receive reactions leaves the data space. -/
theorem exec_mem_of_not_storesByte {i : Instr} {s t : State} (hs : storesByte i = false) (h : exec i s = .next t) :
    t.mem = s.mem := by
  cases hc : i.condition with
  | none => exact exec_command_mem hc h
  | some c => exact exec_reaction_mem (by rw [hc]; rfl) hs h

/-- Settles O48: the receive reactions through the guarded store, byte by byte; all others leave the data space. -/
theorem onlyTheByteAtNextIsStored : Obligations.OnlyTheByteAtNextIsStored := by
  unfold Obligations.OnlyTheByteAtNextIsStored
  intro i s t h
  constructor
  · intro hs a
    calc t.dataByte a
        = (storeByte s).dataByte a := dataByte_congr _ _ a (exec_receive_mem hs h)
      _ = if s.next ≠ s.last ∧ a = s.next then s.dr else s.dataByte a := by
        simp only [dataByte_storeByte, ne_eq, rem_eq_zero_iff]
  · intro hs a
    exact dataByte_congr _ _ a (exec_mem_of_not_storesByte hs h)

end Sys2Proof.Machine
end

section
/-! SUPPORT. Proofs about the two decoders: the fields of a command word, the bits a row's mask selects, the rows a code
can meet, and the statements about them (R71 to R75, R121, R122). -/

namespace Sys2Proof.Laws.RoundTrip

/-- The round trip of every instruction (R71 to R75, R121). -/
theorem statement_holds : ∀ i : Instr, Statement i
  | .beginCmd a8 target => beginCmd a8 target
  | .sbegin a8 target => sbegin a8 target
  | .endCmd => endCmd
  | .wreq buf size => wreq buf size
  | .wreq1 header buf size => wreq1 header buf size
  | .wreq2 header buf size => wreq2 header buf size
  | .rreq buf size => rreq buf size
  | .awaitCmd sleepMode => awaitCmd sleepMode
  | .poll => poll
  | .setrb buf size => setrb buf size
  | .setwb buf size => setwb buf size
  | .rearm => rearm
  | .busError => busError
  | .start => start
  | .repStart => repStart
  | .mtSlaAck => mtSlaAck
  | .mtSlaNack => mtSlaNack
  | .mtDataAck => mtDataAck
  | .mtDataNack => mtDataNack
  | .arbLost => arbLost
  | .mrSlaAck => mrSlaAck
  | .mrSlaNack => mrSlaNack
  | .mrDataAck => mrDataAck
  | .mrDataNack => mrDataNack
  | .srSlaAck => srSlaAck
  | .srArbLostSlaAck => srArbLostSlaAck
  | .srGcallAck => srGcallAck
  | .srArbLostGcallAck => srArbLostGcallAck
  | .srDataAck => srDataAck
  | .srDataNack => srDataNack
  | .srGcallDataAck => srGcallDataAck
  | .srGcallDataNack => srGcallDataNack
  | .srStop => srStop
  | .stSlaAck => stSlaAck
  | .stArbLostSlaAck => stArbLostSlaAck
  | .stDataAck => stDataAck
  | .stDataNack => stDataNack
  | .stLastData => stLastData
  | .unmappedD0 => unmappedD0
  | .unmappedD8 => unmappedD8
  | .unmappedE0 => unmappedE0
  | .unmappedE8 => unmappedE8
  | .unmappedF0 => unmappedF0
  | .noInfo => noInfo

end Sys2Proof.Laws.RoundTrip

namespace Sys2Proof

/-! ### The fields of a command word (R71) -/

/-- OPC is the word's top byte. -/
theorem toNat_shiftRight_opc (w : CmdWord) : (w >>> 56).toNat = (opcOf w).toNat := by
  rw [opcOf, BitVec.extractLsb'_toNat, BitVec.toNat_ushiftRight, Nat.shiftRight_eq_div_pow]
  omega

/-- A8[7] is bit 55. -/
theorem a8Of_msb (w : CmdWord) : (a8Of w).msb = w.getLsbD 55 := by
  simp [a8Of, BitVec.msb_eq_getLsbD_last]

/-! ### The bits a mask selects -/

/-- A mask of the top `n` of `k + n` bits clears the low `k` bits. -/
theorem and_topMask {k n x : Nat} (hx : x < 2 ^ (k + n)) : x &&& (2 ^ n - 1) <<< k = (x >>> k) <<< k := by
  apply Nat.eq_of_testBit_eq
  intro i
  simp only [Nat.testBit_and, Nat.testBit_shiftLeft, Nat.testBit_two_pow_sub_one, Nat.testBit_shiftRight]
  by_cases hk : k ≤ i
  · by_cases hn : i < k + n
    · simp [hk, show i - k < n by omega]
    · have hi : x.testBit i = false :=
        Nat.testBit_lt_two_pow (hx.trans_le (Nat.pow_le_pow_right (by decide) (by omega)))
      simp [hk, hi]
  · simp [hk]

/-- The mask of the rows without an address field selects OPC. -/
theorem and_opcMask (w : CmdWord) : w.toNat &&& 0xFF00000000000000 = (opcOf w).toNat * 2 ^ 56 := by
  rw [← toNat_shiftRight_opc, BitVec.toNat_ushiftRight, ← Nat.shiftLeft_eq]
  exact and_topMask (k := 56) (n := 8) w.isLt

/-- The mask of BEGIN and SBEGIN selects OPC and A8[7]. -/
theorem and_addressMask (w : CmdWord) :
    w.toNat &&& 0xFF80000000000000 = (opcOf w).toNat * 2 ^ 56 + (a8Of w).msb.toNat * 2 ^ 55 := by
  have hmask : w.toNat &&& 0xFF80000000000000 = (w.toNat >>> 55) <<< 55 := and_topMask (k := 55) (n := 9) w.isLt
  have hopc : (opcOf w).toNat = w.toNat / 2 ^ 56 := by
    rw [← toNat_shiftRight_opc, BitVec.toNat_ushiftRight, Nat.shiftRight_eq_div_pow]
  have hbit : (a8Of w).msb.toNat = w.toNat / 2 ^ 55 % 2 := by
    rw [a8Of_msb, BitVec.getLsbD, Nat.toNat_testBit]
  rw [hmask, Nat.shiftLeft_eq, Nat.shiftRight_eq_div_pow, hopc, hbit]
  omega

/-! ### What a decoded code says of its row -/

/-- R74: BEGIN and SBEGIN decode only with A8[7] = 0. -/
theorem wellFormed_of_decodeCommand {w : CmdWord} {i : Instr} (h : decodeCommand w = .ok i) : i.wellFormed = true := by
  unfold decodeCommand at h
  repeat' split at h
  all_goals cases h
  case h_1.isFalse hbit | h_2.isFalse hbit => simpa [Instr.wellFormed] using hbit
  all_goals rfl

/-- R75: a decoded word meets its instruction's row. -/
theorem meets_row_of_decodeCommand {w : CmdWord} {i : Instr} (h : decodeCommand w = .ok i) :
    i.row.nbits = 64 ∧ w.toNat &&& i.row.mask = i.row.matchBits := by
  unfold decodeCommand at h
  repeat' split at h
  all_goals cases h
  case h_1.isFalse hopc hbit | h_2.isFalse hopc hbit => simp [Instr.row, and_addressMask, hopc, hbit]
  all_goals
    next hopc => simp [Instr.row, and_opcMask, hopc]

/-- R121: a status byte meets its instruction's row. -/
theorem meets_row_of_decodeStatus (b : Byte) :
    (decodeStatus b).row.nbits = 8 ∧ b.toNat &&& (decodeStatus b).row.mask = (decodeStatus b).row.matchBits := by
  revert b; decide

/-! ### No two rows share a code (R75, R122) -/

/-- The shapes of a row: a status code; a command with no address field; BEGIN or SBEGIN, the two lowest opcodes,
whose mask holds A8[7] as well. -/
theorem row_shapes (i : Instr) :
    (i.row.nbits = 8 ∧ i.row.mask = 0xF8) ∨
    (i.row.nbits = 64 ∧ i.row.mask = 0xFF00000000000000 ∧ 3 * 2 ^ 56 ≤ i.row.matchBits) ∨
    (i.row.nbits = 64 ∧ i.row.mask = 0xFF80000000000000 ∧ i.row.matchBits < 3 * 2 ^ 56) := by
  cases i <;> simp [Instr.row]

/-- The mask of the row that a code of `nbits` bits `x` can meet: it follows from the width and OPC. -/
def maskMetBy (nbits x : Nat) : Nat :=
  if nbits = 8 then 0xF8
  else if x &&& 0xFF80000000000000 < 3 * 2 ^ 56 then 0xFF80000000000000
  else 0xFF00000000000000

/-- A code that meets a row determines its mask. -/
theorem row_mask_eq_maskMetBy {i : Instr} {x : Nat} (h : x &&& i.row.mask = i.row.matchBits) :
    i.row.mask = maskMetBy i.row.nbits x := by
  rcases row_shapes i with ⟨hn, hm⟩ | ⟨hn, hm, hge⟩ | ⟨hn, hm, hlt⟩
  · simp [maskMetBy, hn, hm]
  · have hopc : 3 * 2 ^ 56 ≤ x &&& 0xFF80000000000000 :=
      calc 3 * 2 ^ 56
          ≤ x &&& 0xFF00000000000000 := by rwa [← hm, h]
        _ = x &&& 0xFF80000000000000 &&& 0xFF00000000000000 := by rw [Nat.and_assoc]; rfl
        _ ≤ x &&& 0xFF80000000000000 := Nat.and_le_left
    simpa [maskMetBy, hn, hm] using hopc
  · have hopc : x &&& 0xFF80000000000000 < 3 * 2 ^ 56 := by rwa [← hm, h]
    simpa [maskMetBy, hn, hm] using hopc

/-- R122: a code meets the match of one row only. -/
theorem row_unique {i j : Instr} {x : Nat} (hn : i.row.nbits = j.row.nbits)
    (hi : x &&& i.row.mask = i.row.matchBits) (hj : x &&& j.row.mask = j.row.matchBits) : i.row = j.row := by
  have hm : i.row.mask = j.row.mask := by rw [row_mask_eq_maskMetBy hi, row_mask_eq_maskMetBy hj, hn]
  have hb : i.row.matchBits = j.row.matchBits := by rw [← hi, ← hj, hm]
  calc i.row
      = ⟨i.row.nbits, i.row.matchBits, i.row.mask⟩ := rfl
    _ = ⟨j.row.nbits, j.row.matchBits, j.row.mask⟩ := by rw [hn, hb, hm]

/-! ### The illegal command words (R74) -/

/-- R74, by the fields of the word. -/
theorem decodeCommand_error_iff (w : CmdWord) :
    (∃ r, decodeCommand w = .error r) ↔
      ((opcOf w).toNat = 0 ∨ 0x0D ≤ (opcOf w).toNat ∨
        (((opcOf w).toNat = 1 ∨ (opcOf w).toNat = 2) ∧ (a8Of w).msb = true)) := by
  unfold decodeCommand
  split
  case h_1 hopc | h_2 hopc => cases hbit : (a8Of w).msb <;> simp [hopc]
  case h_13 =>
    have hopc : (opcOf w).toNat = 0 ∨ 0x0D ≤ (opcOf w).toNat := by grind
    exact iff_of_true ⟨_, rfl⟩ (hopc.imp_right .inl)
  all_goals
    next hopc => simp [hopc]

/-! ### The statements -/

/-- Settles O35: the round trip of each instruction. -/
theorem decodeReadsBackEveryEncodedInstruction : Obligations.DecodeReadsBackEveryEncodedInstruction :=
  Laws.RoundTrip.statement_holds

/-- Settles O36: a decoded code meets its row, and no code meets two rows. -/
theorem decodedCodesMatchTheirTableRow : Obligations.DecodedCodesMatchTheirTableRow := by
  unfold Obligations.DecodedCodesMatchTheirTableRow
  intro c i h
  have hrow : i.wellFormed = true ∧ i.row.nbits = c.nbits ∧ c.bits &&& i.row.mask = i.row.matchBits := by
    cases c with
    | command w => exact ⟨wellFormed_of_decodeCommand h, meets_row_of_decodeCommand h⟩
    | status b => cases h; exact ⟨decodeStatus_wellFormed b, meets_row_of_decodeStatus b⟩
  obtain ⟨hwf, hn, hbits⟩ := hrow
  exact ⟨hwf, hn.symm, hbits, fun j hnj hj => row_unique (hnj.symm.trans hn.symm) hj hbits⟩

/-- Settles O37: the rejected words by their fields, and where the fields lie in the word. -/
theorem illegalCommandWordsAreExactlyThese : Obligations.IllegalCommandWordsAreExactlyThese := by
  unfold Obligations.IllegalCommandWordsAreExactlyThese
  intro w
  rw [toNat_shiftRight_opc, ← a8Of_msb]
  exact decodeCommand_error_iff w

/-- Settles O38: at each opcode the decoder reads only the fields the command uses. -/
theorem unusedCommandFieldsAreIgnored : Obligations.UnusedCommandFieldsAreIgnored := by
  unfold Obligations.UnusedCommandFieldsAreIgnored
  intro op a a' h h' b b' z z'
  refine ⟨?_, ?_, ?_, ?_, ?_, ?_⟩
  · rintro (rfl | rfl) <;> simp [decodeCommand]
  · rintro (rfl | rfl | rfl) <;> simp [decodeCommand]
  · rintro (rfl | rfl | rfl | rfl) <;> simp [decodeCommand]
  · rintro rfl; simp [decodeCommand]
  · rintro rfl; simp [decodeCommand]
  · rintro rfl; simp [decodeCommand]

/-- Settles O40, by evaluating the two decoders on the spec's words. -/
theorem writtenOutWordsDecodeAsTheSpecSays : Obligations.WrittenOutWordsDecodeAsTheSpecSays := by
  unfold Obligations.WrittenOutWordsDecodeAsTheSpecSays
  decide

end Sys2Proof
end

section
/-! SUPPORT. The transfer descriptor: the builders and their totals (R101 to R103, R107, R108), `seg_load` and `advance()`
(R104 to R106, R109), and the requests that start on them (R143 to R147). -/

namespace Sys2Proof.Machine

/-! ### The segment load (R104) -/

/-- R104: what `seg_load` writes, as one record. -/
theorem segLoad_eq (i : Fin 5) (s : State) :
    segLoad i s = { s with
      ix := i
      next := if atSentinel s.vec i then 0#16 else (s.vec.slot i).buf
      last := if atSentinel s.vec i then 0#16 else (s.vec.slot i).buf + (s.vec.slot i).len } := by
  cases h : atSentinel s.vec i <;> simp [segLoad, h]

/-- R104: a load reads VEC alone, so it forgets where the cursor stood. -/
@[simp] theorem segLoad_segLoad (i j : Fin 5) (s : State) : segLoad j (segLoad i s) = segLoad j s := by
  simp only [segLoad_eq]

/-- R109: the slot after one that does not end the descriptor. -/
theorem val_succ_of_segment {v : Descriptor} {i : Fin 5} (h : atSentinel v i = false) : (i + 1).val = i.val + 1 := by
  have h4 : i ≠ 4 := fun e => by simp [e] at h
  exact Fin.val_add_one_of_lt (Fin.lt_last_iff_ne_last.2 h4)

/-! ### The sequencer (R106) -/

/-- R106: from a slot with enough iterations left, one more changes nothing. -/
theorem advanceLoop_succ (n : Nat) (s : State) (h : 4 ≤ s.ix.val + n) : advanceLoop (n + 1) s = advanceLoop n s := by
  induction n generalizing s with
  | zero =>
    have h4 : s.ix = 4 := Fin.ext (by change s.ix.val = 4; omega)
    simp [advanceLoop, h4]
  | succ n ih =>
    by_cases hc : s.rem = 0#16 ∧ atSentinel s.vec s.ix = false
    · have hix : 4 ≤ (segLoad (s.ix + 1) s).ix.val + n := by rw [segLoad_ix, val_succ_of_segment hc.2]; omega
      calc advanceLoop (n + 2) s
          = advanceLoop (n + 1) (segLoad (s.ix + 1) s) := if_pos hc
        _ = advanceLoop n (segLoad (s.ix + 1) s) := ih _ hix
        _ = advanceLoop (n + 1) s := (if_pos hc).symm
    · exact (if_neg hc).trans (if_neg hc).symm

/-- R106: an exhausted segment is left for the next slot. -/
theorem advance_of_exhausted {s : State} (hr : s.rem = 0#16) (hs : atSentinel s.vec s.ix = false) :
    advance s = advance (segLoad (s.ix + 1) s) :=
  calc advance s
      = advanceLoop 3 (segLoad (s.ix + 1) s) := if_pos ⟨hr, hs⟩
    _ = advance (segLoad (s.ix + 1) s) := by
      refine (advanceLoop_succ 3 _ ?_).symm
      rw [segLoad_ix, val_succ_of_segment hs]
      omega

/-- R106: `t` is where `advance()` lands from the exhausted segment of `s`: at the start of a later slot that has a byte or
ends the descriptor, with only empty segments between. -/
structure Lands (s t : State) : Prop where
  later : s.ix < t.ix
  skipped : ∀ k, s.ix < k → k < t.ix → atSentinel s.vec k = false ∧ (s.vec.slot k).len = 0#16
  nonempty : atSentinel s.vec t.ix = false → (s.vec.slot t.ix).len ≠ 0#16
  loaded : t = segLoad t.ix s

/-- The next slot is the landing when it has a byte or ends the descriptor. -/
theorem Lands.next_slot {s : State} (hs : atSentinel s.vec s.ix = false)
    (hstop : (segLoad (s.ix + 1) s).rem = 0#16 → atSentinel s.vec (s.ix + 1) = true) :
    Lands s (segLoad (s.ix + 1) s) := by
  have hix := val_succ_of_segment hs
  constructor
  · rw [segLoad_ix, Fin.lt_def]; omega
  · intro k hk hk'
    rw [segLoad_ix, Fin.lt_def] at hk'
    rw [Fin.lt_def] at hk
    omega
  · rw [segLoad_ix]
    intro h hlen
    exact Bool.false_ne_true (h.symm.trans (hstop ((segLoad_segment_rem _ _ h).trans hlen)))
  · rw [segLoad_ix]

/-- An empty segment between does not change the landing. -/
theorem Lands.of_empty {s t : State} (hs : atSentinel s.vec s.ix = false)
    (hr : (segLoad (s.ix + 1) s).rem = 0#16) (hs' : atSentinel s.vec (s.ix + 1) = false)
    (h : Lands (segLoad (s.ix + 1) s) t) : Lands s t := by
  obtain ⟨hlater, hskipped, hnonempty, hloaded⟩ := h
  have hix := val_succ_of_segment hs
  simp only [segLoad_ix, segLoad_vec, segLoad_segLoad, Fin.lt_def] at hlater hskipped hnonempty hloaded
  refine ⟨Fin.lt_def.2 (by omega), fun k hk hk' => ?_, hnonempty, hloaded⟩
  rw [Fin.lt_def] at hk hk'
  by_cases he : k = s.ix + 1
  · subst he; exact ⟨hs', segLoad_segment_rem _ _ hs' ▸ hr⟩
  · exact hskipped k (by have := Fin.val_ne_of_ne he; omega) hk'

/-- R106: what `advance()` can do: it stays where it is when bytes are left or the descriptor ends, else it lands. -/
theorem advance_cases (s : State) :
    (s.rem = 0#16 → atSentinel s.vec s.ix = true) ∧ advance s = s ∨
    (s.rem = 0#16 ∧ atSentinel s.vec s.ix = false) ∧ Lands s (advance s) := by
  by_cases hr : s.rem = 0#16
  · cases hs : atSentinel s.vec s.ix with
    | true => exact .inl ⟨fun _ => rfl, advance_of_sentinel s hs⟩
    | false =>
      refine .inr ⟨⟨hr, rfl⟩, ?_⟩
      rw [advance_of_exhausted hr hs]
      have hix := val_succ_of_segment hs
      obtain ⟨hstop, hstay⟩ | ⟨⟨hr', hs'⟩, hlands⟩ := advance_cases (segLoad (s.ix + 1) s)
      · rw [hstay]; exact .next_slot hs (by simpa using hstop)
      · exact hlands.of_empty hs hr' (by simpa using hs')
  · exact .inl ⟨fun h => absurd h hr, advance_of_rem s hr⟩
termination_by 4 - s.ix.val
decreasing_by rw [segLoad_ix]; omega

/-- R104: `seg_load` writes IX, NEXT and LAST only. -/
theorem segLoad_frame (i : Fin 5) (s : State) :
    segLoad i s = { s with ix := (segLoad i s).ix, next := (segLoad i s).next, last := (segLoad i s).last } := by
  rw [segLoad_eq]

/-- Settles O31: `advance()` stays, or lands on the later slot whose start is loaded. -/
theorem advanceFindsAByteOrTheSentinel : Obligations.AdvanceFindsAByteOrTheSentinel := by
  unfold Obligations.AdvanceFindsAByteOrTheSentinel
  intro s
  have hend := advanceLoop_spec 4 s (by omega)
  rw [advanceLoop_vec] at hend
  refine ⟨hend, ?_⟩
  obtain ⟨hstop, hstay⟩ | ⟨⟨hr, hs⟩, hlands⟩ := advance_cases s
  · rw [hstay]
    exact ⟨le_rfl, fun _ => rfl, fun hr hs => absurd (hstop hr) (by simp [hs]), rfl⟩
  · obtain ⟨hlater, hskipped, hnonempty, hloaded⟩ := hlands
    refine ⟨hlater.le, fun h => absurd h (by simp [hr, hs]),
      fun _ _ => ⟨hlater, hskipped, fun h => ?_, fun h => ⟨hnonempty h, ?_⟩⟩, ?_⟩
    · rw [hloaded, segLoad_eq]; simp [h]
    · rw [hloaded, segLoad_eq]; simp [h]
    · rw [hloaded]; exact segLoad_frame _ s

/-! ### The bytes of a descriptor, in the order they move (R106, R110) -/

/-- The addresses of a segment of `n` bytes at `a`. -/
def segAddrs (a : Ptr) : Nat → List Ptr
  | 0 => []
  | n + 1 => a :: segAddrs (a + 1#16) n

@[simp] theorem length_segAddrs (a : Ptr) (n : Nat) : (segAddrs a n).length = n := by
  induction n generalizing a with
  | zero => rfl
  | succ n ih => simp [segAddrs, ih]

/-- Position `k + 1` of a segment is position `k` after its first byte. -/
theorem add_ofNat_succ (a : Ptr) (k : Nat) : a + BitVec.ofNat 16 (k + 1) = a + 1#16 + BitVec.ofNat 16 k := by
  rw [BitVec.add_assoc, ← BitVec.ofNat_add_ofNat, BitVec.add_comm 1#16]

@[simp] theorem getElem_segAddrs (a : Ptr) (n k : Nat) (h : k < (segAddrs a n).length) :
    (segAddrs a n)[k] = a + BitVec.ofNat 16 k := by
  induction n generalizing a k with
  | zero => simp [segAddrs] at h
  | succ n ih =>
    cases k with
    | zero => simp [segAddrs]
    | succ k => simp only [segAddrs, List.getElem_cons_succ, ih, add_ofNat_succ a k]

/-- The addresses of the segments from slot `i` to the first sentinel, by the recursion of `totalFrom`. -/
def addrsFrom (v : Descriptor) : Nat → Fin 5 → List Ptr
  | 0, _ => []
  | n + 1, i =>
    if atSentinel v i then [] else segAddrs (v.slot i).buf (v.slot i).len.toNat ++ addrsFrom v n (i + 1)

/-- The addresses of the bytes a descriptor moves. -/
def Descriptor.addrs (v : Descriptor) : List Ptr := addrsFrom v 5 0

theorem length_addrsFrom (v : Descriptor) (n : Nat) (i : Fin 5) : (addrsFrom v n i).length = totalFrom v n i := by
  induction n generalizing i with
  | zero => rfl
  | succ n ih =>
    unfold addrsFrom totalFrom
    split
    · rfl
    · simp [ih]

/-- R108: the total is the number of bytes that move. -/
theorem length_addrs (v : Descriptor) : v.addrs.length = v.total := length_addrsFrom v 5 0

theorem addrsFrom_of_sentinel {v : Descriptor} {i : Fin 5} (h : atSentinel v i = true) (n : Nat) :
    addrsFrom v n i = [] := by
  cases n <;> simp [addrsFrom, h]

theorem addrsFrom_of_segment {v : Descriptor} {i : Fin 5} (h : atSentinel v i = false) (n : Nat) :
    addrsFrom v (n + 1) i = segAddrs (v.slot i).buf (v.slot i).len.toNat ++ addrsFrom v n (i + 1) := by
  simp [addrsFrom, h]

/-- The payload, then the sentinel; a null buffer is the sentinel itself (R101 to R103, R108). -/
theorem addrsFrom_payload {v : Descriptor} {i : Fin 5} {buf : Ptr} {size : Half} (n : Nat) (hi : i ≠ 4)
    (hp : v.slot i = ⟨buf, size⟩) (hend : atSentinel v (i + 1) = true) :
    addrsFrom v (n + 1) i = segAddrs buf (payloadLength buf size) := by
  by_cases hb : buf = 0#16
  · rw [addrsFrom_of_sentinel (by simp [atSentinel, hp, hb])]
    simp [payloadLength, hb, segAddrs]
  · rw [addrsFrom_of_segment (by simp [atSentinel, hp, hb, hi]), addrsFrom_of_sentinel hend]
    simp [payloadLength, hb, hp]

/-! ### The builders (R101 to R103) -/

section
variable (buf : Ptr) (size : Half) (s : State)

/-- R101, R107: the raw payload. -/
theorem buildRaw_addrs : (buildRaw buf size s).vec.addrs = segAddrs buf (payloadLength buf size) :=
  addrsFrom_payload 4 (by decide) rfl rfl

/-- R102: the header byte, then the payload. -/
theorem buildHeader1_addrs (header : Byte) : (buildHeader1 header buf size s).vec.addrs =
    s.params.hdrAddr :: segAddrs buf (payloadLength buf size) := by
  rw [Descriptor.addrs, addrsFrom_of_segment, addrsFrom_payload 3 (by decide) rfl rfl]
  · rfl
  · simp [atSentinel, buildHeader1, Descriptor.slot, hdrAddr_ne_zero]

/-- R103: the two header bytes, then the payload. -/
theorem buildHeader2_addrs (header : Half) : (buildHeader2 header buf size s).vec.addrs =
    s.params.hdrAddr :: (s.params.hdrAddr + 1#16) :: segAddrs buf (payloadLength buf size) := by
  rw [Descriptor.addrs, addrsFrom_of_segment, addrsFrom_payload 3 (by decide) rfl rfl]
  · rfl
  · simp [atSentinel, buildHeader2, Descriptor.slot, hdrAddr_ne_zero]

end

/-- Settles O32: the total is the number of addresses of the header and the payload. -/
theorem builtDescriptorsHaveTheAdvertisedTotal : Obligations.BuiltDescriptorsHaveTheAdvertisedTotal := by
  unfold Obligations.BuiltDescriptorsHaveTheAdvertisedTotal
  intro buf size h16 h8 s
  simp only [← length_addrs, buildRaw_addrs, buildHeader1_addrs, buildHeader2_addrs, List.length_cons, length_segAddrs]
  exact ⟨rfl, Nat.add_comm _ 1, Nat.add_comm _ 2⟩

/-! ### The requests (R143 to R147) -/

/-- R143: a request that passes the three tests. -/
theorem request_of_accepted {s : State} {total : Nat} (hm : s.role = .master) (hidle : s.state = .idle)
    (htotal : total ≤ 32767) (op : Bool) (built : State) : request op total built s = requestAccept op built := by
  have hok : ¬ requestRefused total s = true := by
    rw [requestRefused_iff, hm, hidle]
    simpa using htotal
  exact if_neg hok

/-- R143: an accepted request, as one record over the cursor loaded from the built descriptor. -/
theorem requestAccept_eq (op : Bool) {built loaded : State} (h : segLoad 0 built = loaded) :
    ∃ m l, requestAccept op built = { loaded with
      count := 0#16
      addr := requestAddress built.dev op
      state := if op then .mr else .mt
      cr := 0x65#8
      pending := some ⟨0xE5#8, built.dr⟩
      busMode := m
      busLast := l
      port := .answered (responseWord (if op then .mr else .mt) 0#16) } :=
  ⟨(requestAccept op built).busMode, (requestAccept op built).busLast, by
    simp [requestAccept, respond, crWrite, accepted, ← h]; rfl⟩

/-- R104, R101: the cursor on the raw descriptor. -/
theorem segLoad_buildRaw (buf : Ptr) (size : Half) (s : State) :
    segLoad 0 (buildRaw buf size s) = { buildRaw buf size s with
      ix := 0, next := buf, last := if buf = 0#16 then 0#16 else buf + size } := by
  rw [segLoad_eq]
  by_cases hb : buf = 0#16 <;> simp [atSentinel, buildRaw, Descriptor.slot, hb]

/-- R104, R102, R103: the cursor on a header segment. -/
theorem segLoad_header {s : State} {n : Half} (h : s.vec.slot0 = ⟨s.params.hdrAddr, n⟩) :
    segLoad 0 s = { s with ix := 0, next := s.params.hdrAddr, last := s.params.hdrAddr + n } := by
  rw [segLoad_eq]
  simp [atSentinel, Descriptor.slot, h, hdrAddr_ne_zero]

/-- Settles O8: the accepted request on the raw descriptor. -/
theorem wreqAcceptedStartsAMasterTransmit : Obligations.WreqAcceptedStartsAMasterTransmit := by
  unfold Obligations.WreqAcceptedStartsAMasterTransmit
  intro buf size s hm hidle htotal
  obtain ⟨m, l, h⟩ := requestAccept_eq false (segLoad_buildRaw buf size s)
  exact ⟨m, l, congrArg Host.Outcome.next ((request_of_accepted hm hidle htotal _ _).trans h)⟩

/-- Settles O9: the accepted request on the descriptor with a 1-byte header. -/
theorem wreq1AcceptedPutsTheHeaderFirst : Obligations.Wreq1AcceptedPutsTheHeaderFirst := by
  unfold Obligations.Wreq1AcceptedPutsTheHeaderFirst
  intro header buf size s hm hidle htotal
  obtain ⟨m, l, h⟩ := requestAccept_eq false (segLoad_header (s := buildHeader1 header buf size s) rfl)
  exact ⟨m, l, congrArg Host.Outcome.next ((request_of_accepted hm hidle htotal _ _).trans h)⟩

/-- Settles O10: the accepted request on the descriptor with a 2-byte header. -/
theorem wreq2AcceptedSplitsTheHeader : Obligations.Wreq2AcceptedSplitsTheHeader := by
  unfold Obligations.Wreq2AcceptedSplitsTheHeader
  intro header buf size s hm hidle htotal
  obtain ⟨m, l, h⟩ := requestAccept_eq false (segLoad_header (s := buildHeader2 header buf size s) rfl)
  exact ⟨m, l, congrArg Host.Outcome.next ((request_of_accepted hm hidle htotal _ _).trans h)⟩

/-- R147: an accepted read request. -/
theorem exec_rreq_accepted {buf : Ptr} {size : Half} {s : State} (hb : buf ≠ 0#16) (hsize : size ≠ 0#16)
    (hm : s.role = .master) (hidle : s.state = .idle) (htotal : size.toNat ≤ 32767) :
    exec (.rreq buf size) s = .next (requestAccept true (buildRaw buf size s)) := by
  have hne : ¬ (buf = 0#16 ∨ size = 0#16) := by simp [hb, hsize]
  rw [exec, execRreq, if_neg hne, request_of_accepted hm hidle htotal]

/-- Settles O11: the refusal is the first test; else the accepted request on the raw descriptor. -/
theorem rreqRefusesEmptyElseStartsAMasterReceive : Obligations.RreqRefusesEmptyElseStartsAMasterReceive := by
  unfold Obligations.RreqRefusesEmptyElseStartsAMasterReceive
  intro buf size s
  refine ⟨fun h => if_pos h, fun hb hsize hm hidle htotal => ?_⟩
  obtain ⟨m, l, h⟩ := requestAccept_eq true (segLoad_buildRaw buf size s)
  rw [if_neg hb] at h
  exact ⟨m, l, (exec_rreq_accepted hb hsize hm hidle htotal).trans (congrArg Host.Outcome.next h)⟩

end Sys2Proof.Machine
end

section
/-! SUPPORT. Whole transfers: a master write moves the bytes of its descriptor in order (R110, R111), and a master read
stores the received bytes in order (R111, R180, R181). -/

namespace Sys2Proof.Machine

/-! ### Runs of instructions -/

/-- One instruction more at the front of a run. -/
theorem runInstrs_cons {i : Instr} {s t : State} (h : exec i s = .next t) (l : List Instr) :
    runInstrs (i :: l) s = runInstrs l t := by
  rw [runInstrs, h]

/-- R176: each ACKed byte is one `mt_next()`. -/
theorem runInstrs_mtDataAck (k : Nat) (s : State) :
    runInstrs (List.replicate k .mtDataAck) s = .next (mtNext^[k] s) := by
  induction k generalizing s with
  | zero => rfl
  | succ k ih => exact (runInstrs_cons rfl _).trans (ih (mtNext s))

/-! ### One step of the transmitter (R175) -/

/-- R175: `mt_next()` while a byte is left. -/
theorem mtNext_of_byte {s : State} (h : (advance s).rem ≠ 0#16) :
    mtNext s = crWrite dataCmd (loadByte (advance s)) := if_neg h

/-- R175: `mt_next()` at the end of the descriptor. -/
theorem mtNext_of_end {s : State} (h : (advance s).rem = 0#16) :
    mtNext s = stop .idle .writeCompleted (advance s) := if_pos h

/-- What a transmitter leaves while bytes are left: all that an engine read sees, and what the end of the write uses. -/
structure SendFrame (s t : State) : Prop where
  state : t.state = s.state
  hdr0 : t.hdr0 = s.hdr0
  hdr1 : t.hdr1 = s.hdr1
  mem : t.mem = s.mem
  params : t.params = s.params
  target : t.target = s.target
  evq : t.evq = s.evq

theorem SendFrame.refl (s : State) : SendFrame s s := ⟨rfl, rfl, rfl, rfl, rfl, rfl, rfl⟩

theorem SendFrame.trans {s t u : State} (h : SendFrame s t) (h' : SendFrame t u) : SendFrame s u :=
  ⟨h'.state.trans h.state, h'.hdr0.trans h.hdr0, h'.hdr1.trans h.hdr1, h'.mem.trans h.mem, h'.params.trans h.params,
    h'.target.trans h.target, h'.evq.trans h.evq⟩

theorem advance_sendFrame (s : State) : SendFrame s (advance s) := by constructor <;> simp

theorem mtNext_sendFrame {s : State} (h : (advance s).rem ≠ 0#16) : SendFrame s (mtNext s) := by
  rw [mtNext_of_byte h]
  constructor <;> simp

/-- R52, R54: an engine read sees the header and the data space alone. -/
theorem SendFrame.memRead_eq {s t : State} (h : SendFrame s t) (a : Ptr) : memRead a t = memRead a s := by
  simp only [memRead, h.hdr0, h.hdr1, h.params, dataByte_congr s t a h.mem]

/-! ### The addresses a transmitter is to send -/

/-- The successive `mt_next()` from `s` send the bytes at these addresses, and then the descriptor has ended. -/
def WillSend : List Ptr → State → Prop
  | [], s => (advance s).rem = 0#16
  | a :: l, s => ((advance s).rem ≠ 0#16 ∧ (advance s).next = a) ∧ WillSend l (mtNext s)

/-- What is sent depends on where `advance()` lands alone. -/
theorem WillSend.congr {l : List Ptr} {s t : State} (h : advance s = advance t) (ht : WillSend l t) : WillSend l s := by
  have hnext : mtNext s = mtNext t := congrArg mtSend h
  cases l <;> simpa only [WillSend, h, hnext] using ht

/-- The bytes left in the active segment are sent first, and then what an exhausted cursor on the same slot sends. -/
theorem WillSend.segment {rest : List Ptr} (n : Nat) {s : State} (hn : s.rem.toNat = n)
    (hrest : ∀ t, t.vec = s.vec → t.ix = s.ix → t.rem = 0#16 → WillSend rest t) :
    WillSend (segAddrs s.next n ++ rest) s := by
  induction n generalizing s with
  | zero => exact hrest s rfl rfl (BitVec.eq_of_toNat_eq hn)
  | succ n ih =>
    have hr : s.rem ≠ 0#16 := fun h => by simp [h] at hn
    have hstay := advance_of_rem s hr
    have hbyte : (advance s).rem ≠ 0#16 := by rwa [hstay]
    have hsent : mtNext s = crWrite dataCmd (loadByte s) := (mtNext_of_byte hbyte).trans (by rw [hstay])
    refine ⟨⟨hbyte, by rw [hstay]⟩, ?_⟩
    have hn' : (mtNext s).rem.toNat = n := by
      rw [hsent, rem_crWrite, rem_loadByte, toNat_sub_one _ hr]
      omega
    have hnext : (mtNext s).next = s.next + 1#16 := by rw [hsent]; rfl
    rw [← hnext]
    exact ih hn' (by rw [hsent]; exact hrest)

/-- R106: from the start of slot `i` the transmitter sends the segments up to the first sentinel. -/
theorem willSend_addrsFrom (n : Nat) {i : Fin 5} {s : State} (hfuel : 5 ≤ i.val + n) (hstart : segLoad i s = s) :
    WillSend (addrsFrom s.vec n i) s := by
  induction n generalizing i s with
  | zero => omega
  | succ n ih =>
    have hix : s.ix = i := by rw [← hstart, segLoad_ix]
    cases hs : atSentinel s.vec i with
    | true =>
      rw [addrsFrom_of_sentinel hs]
      have hstay : advance s = s := advance_of_sentinel s (hix ▸ hs)
      change (advance s).rem = 0#16
      rw [hstay, ← hstart]
      exact segLoad_sentinel_rem i s hs
    | false =>
      rw [addrsFrom_of_segment hs]
      have hnext : s.next = (s.vec.slot i).buf := by rw [← hstart, segLoad_eq]; simp [hs]
      have hlen : s.rem = (s.vec.slot i).len := by rw [← segLoad_segment_rem i s hs, hstart]
      rw [← hnext, ← hlen]
      refine .segment _ rfl fun t hvec htix htr => ?_
      rw [hix] at htix
      have hmove : advance t = advance (segLoad (i + 1) t) := by
        rw [← htix]; exact advance_of_exhausted htr (by rw [hvec, htix, hs])
      rw [← hvec, ← segLoad_vec (i + 1) t]
      exact .congr hmove (ih (by rw [val_succ_of_segment hs]; omega) (segLoad_segLoad _ _ t))

/-- R110, R111: after `k` steps of the transmitter, none of them at the end, `k` bytes are counted. -/
theorem WillSend.iterate {l : List Ptr} {s : State} (h : WillSend l s) (k : Nat) (hk : k ≤ l.length) :
    SendFrame s (mtNext^[k] s) ∧ (mtNext^[k] s).count = s.count + BitVec.ofNat 16 k ∧
    WillSend (l.drop k) (mtNext^[k] s) := by
  induction k with
  | zero => exact ⟨.refl s, by simp, h⟩
  | succ k ih =>
    obtain ⟨hframe, hcount, hleft⟩ := ih (by omega)
    rw [List.drop_eq_getElem_cons hk] at hleft
    obtain ⟨⟨hbyte, _⟩, hrest⟩ := hleft
    rw [Function.iterate_succ_apply']
    refine ⟨hframe.trans (mtNext_sendFrame hbyte), ?_, hrest⟩
    rw [mtNext_of_byte hbyte, crWrite_count, loadByte_count, advance_count, hcount, BitVec.add_assoc,
      BitVec.ofNat_add_ofNat]

/-- R110: the byte handed to the BUS agent at position `k`. -/
theorem WillSend.position {l : List Ptr} {s : State} (h : WillSend l s) (k : Nat) (hk : k < l.length) :
    (mtNext^[k + 1] s).pending = some ⟨dataCmd, memRead l[k] s⟩ := by
  obtain ⟨hframe, _, hleft⟩ := h.iterate k hk.le
  rw [List.drop_eq_getElem_cons hk] at hleft
  obtain ⟨⟨hbyte, haddr⟩, _⟩ := hleft
  rw [Function.iterate_succ_apply', mtNext_of_byte hbyte, crWrite_pending, pendingAfter_data, loadByte_dr, haddr,
    (hframe.trans (advance_sendFrame _)).memRead_eq]

/-- R175: after the last byte the write ends with a STOP; nothing is left behind but the count. -/
theorem WillSend.ending {l : List Ptr} {s : State} (h : WillSend l s) :
    ∃ t, mtNext^[l.length + 1] s = stop .idle .writeCompleted t ∧ SendFrame s t ∧
      t.count = s.count + BitVec.ofNat 16 l.length := by
  obtain ⟨hframe, hcount, hleft⟩ := h.iterate l.length le_rfl
  rw [List.drop_length] at hleft
  rw [Function.iterate_succ_apply', mtNext_of_end hleft]
  exact ⟨_, rfl, hframe.trans (advance_sendFrame _), by rw [advance_count, hcount]⟩

/-! ### A write request and its START (R143 to R146, R172) -/

/-- The state with the builder's writes of a write request (R101 to R103). -/
def writeBuilt (i : Instr) (s : State) : State :=
  match i with
  | .wreq buf size => buildRaw buf size s
  | .wreq1 header buf size => buildHeader1 header buf size s
  | .wreq2 header buf size => buildHeader2 header buf size s
  | _ => s

/-- Where a write stands when the address byte has been sent. -/
def writeStarted (i : Instr) (s : State) : State := sendAddress (requestAccept false (writeBuilt i s))

section
variable {i : Instr} {s : State}

theorem exec_writeRequest_accepted (hi : isWriteRequest i = true) (hm : s.role = .master) (hidle : s.state = .idle)
    (htotal : writeTotal i ≤ 32767) : exec i s = .next (requestAccept false (writeBuilt i s)) := by
  cases i with
  | wreq _ _ | wreq1 _ _ _ | wreq2 _ _ _ => exact congrArg Host.Outcome.next (request_of_accepted hm hidle htotal _ _)
  | _ => cases hi

/-- An accepted write up to its address byte, and then `k + 1` ACKs. -/
theorem runInstrs_write (hi : isWriteRequest i = true) (hm : s.role = .master) (hidle : s.state = .idle)
    (htotal : writeTotal i ≤ 32767) (k : Nat) :
    runInstrs ([i, .start, .mtSlaAck] ++ List.replicate k .mtDataAck) s = .next (mtNext^[k + 1] (writeStarted i s)) :=
  calc runInstrs ([i, .start, .mtSlaAck] ++ List.replicate k .mtDataAck) s
      = runInstrs ([.start, .mtSlaAck] ++ List.replicate k .mtDataAck) (requestAccept false (writeBuilt i s)) :=
        runInstrs_cons (exec_writeRequest_accepted hi hm hidle htotal) _
    _ = runInstrs (List.replicate k .mtDataAck) (mtNext (writeStarted i s)) := rfl
    _ = .next (mtNext^[k + 1] (writeStarted i s)) := runInstrs_mtDataAck k _

/-- The started write stands at slot 0 of its descriptor. -/
theorem willSend_writeStarted (i : Instr) (s : State) :
    WillSend (writeBuilt i s).vec.addrs (writeStarted i s) := by
  have hvec : (writeStarted i s).vec = (writeBuilt i s).vec := by simp [writeStarted, sendAddress, requestAccept]
  rw [← hvec]
  refine willSend_addrsFrom 5 (by decide) ?_
  simp [writeStarted, sendAddress, requestAccept, respond, crWrite, segLoad_eq]

/-- Starting the write leaves what an engine read sees, the target and the event queue. -/
theorem writeStarted_frame (i : Instr) (s : State) :
    SendFrame { writeBuilt i s with state := .mt } (writeStarted i s) := by
  constructor <;> simp [writeStarted, sendAddress, requestAccept]

theorem writeBuilt_evq (i : Instr) (s : State) : (writeBuilt i s).evq = s.evq := by cases i <;> rfl

theorem writeBuilt_target (i : Instr) (s : State) : (writeBuilt i s).target = s.target := by cases i <;> rfl

/-- R111: the descriptor of a write request moves as many bytes as the request advertises. -/
theorem length_writeBuilt_addrs (hi : isWriteRequest i = true) :
    (writeBuilt i s).vec.addrs.length = writeTotal i := by
  cases i with
  | wreq _ _ => simp [writeBuilt, buildRaw_addrs, writeTotal]
  | wreq1 _ _ _ => simp [writeBuilt, buildHeader1_addrs, writeTotal]; omega
  | wreq2 _ _ _ => simp [writeBuilt, buildHeader2_addrs, writeTotal]; omega
  | _ => cases hi

/-- R54, R110: the bytes of the descriptor are the header's, read through the header window, then the payload's. -/
theorem memRead_writeBuilt_addrs (hi : isWriteRequest i = true) (k : Nat)
    (hk : k < (writeBuilt i s).vec.addrs.length) :
    memRead (writeBuilt i s).vec.addrs[k] (writeBuilt i s) = writeByte i s k := by
  cases i with
  | wreq buf size =>
    simp only [writeBuilt, buildRaw_addrs, getElem_segAddrs]
    rfl
  | wreq1 header buf size =>
    simp only [writeBuilt, buildHeader1_addrs]
    cases k with
    | zero => exact memRead_hdrAddr rfl
    | succ k => simp only [List.getElem_cons_succ, getElem_segAddrs]; rfl
  | wreq2 header buf size =>
    simp only [writeBuilt, buildHeader2_addrs]
    match k with
    | 0 => exact memRead_hdrAddr rfl
    | 1 =>
      have hne : s.params.hdrAddr + 1#16 ≠ s.params.hdrAddr := by simp
      exact memRead_hdrAddr_succ hne rfl
    | k + 2 => simp only [List.getElem_cons_succ, getElem_segAddrs]; rfl
  | _ => cases hi

end

/-- R143: the count of a started write is 0. -/
theorem writeStarted_count (i : Instr) (s : State) : (writeStarted i s).count = 0#16 := by
  simp [writeStarted, sendAddress]

/-- Settles O59: the write is the transmitter's run over the addresses of the built descriptor. -/
theorem ackedWriteSendsEveryByteInOrder : Obligations.AckedWriteSendsEveryByteInOrder := by
  unfold Obligations.AckedWriteSendsEveryByteInOrder
  intro i s hi hm hidle htotal
  have hsend := willSend_writeStarted i s
  have hstart := writeStarted_frame i s
  have hlen : (writeBuilt i s).vec.addrs.length = writeTotal i := length_writeBuilt_addrs hi
  constructor
  · intro k hk
    rw [← hlen] at hk
    obtain ⟨hframe, hcount, _⟩ := hsend.iterate (k + 1) hk
    refine ⟨_, runInstrs_write hi hm hidle htotal k, ?_, ?_, ?_, ?_⟩
    · rw [hsend.position k hk, hstart.memRead_eq, ← memRead_writeBuilt_addrs hi k hk]
      rfl
    · exact hframe.state.trans hstart.state
    · rw [hcount, writeStarted_count, BitVec.zero_add]
    · exact (hframe.evq.trans hstart.evq).trans (writeBuilt_evq i s)
  · obtain ⟨t, hend, hframe, hcount⟩ := hsend.ending
    rw [hlen] at hend hcount
    have hcount' : t.count = BitVec.ofNat 16 (writeTotal i) := by rw [hcount, writeStarted_count, BitVec.zero_add]
    have hevq : t.evq = s.evq := (hframe.evq.trans hstart.evq).trans (writeBuilt_evq i s)
    have htarget : t.target = s.target := (hframe.target.trans hstart.target).trans (writeBuilt_target i s)
    refine ⟨_, (runInstrs_write hi hm hidle htotal _).trans (congrArg _ hend), ?_, ?_, ?_, ?_⟩
    · simp [stop]
    · simp [stop, hcount']
    · simp [stop]; rfl
    · simp [stop, push_evq, hevq, htarget, hcount']

/-! ### A read (R147, R179 to R181) -/

/-- What an acknowledged read of the bytes `l` from the cursor of `s` leaves behind. -/
structure ReadDone (l : List Byte) (s u : State) : Prop where
  state : u.state = .idle
  count : u.count = s.count + BitVec.ofNat 16 l.length
  pending : u.pending = some ⟨stopCmd, u.dr⟩
  evq : u.evq = if s.target = 0#16 then s.evq else s.evq ++ [⟨.readCompleted, s.target, u.count⟩]
  stored : ∀ k, (h : k < l.length) → u.dataByte (s.next + BitVec.ofNat 16 k) = l[k]
  kept : ∀ a, (∀ k, k < l.length → a ≠ s.next + BitVec.ofNat 16 k) → u.dataByte a = s.dataByte a

/-- R180, R181: a byte that has arrived in DR, and its guarded store. -/
def received (d : Byte) (s : State) : State := storeByte { s with dr := d }

section
variable {s : State} (hr : s.rem ≠ 0#16) (d : Byte)
include hr

theorem received_dataByte (a : Ptr) : (received d s).dataByte a = if a = s.next then d else s.dataByte a := by
  have hr' : { s with dr := d }.rem ≠ 0#16 := hr
  rw [received, dataByte_storeByte]
  simp only [ne_eq, hr', not_false_eq_true, true_and]
  rfl

theorem received_next : (received d s).next = s.next + 1#16 := (storeByte_next _).trans (if_neg hr)

theorem received_count : (received d s).count = s.count + 1#16 := (storeByte_count _).trans (if_neg hr)

theorem received_rem : (received d s).rem = s.rem - 1#16 := rem_storeByte_of_room _ hr

end

/-- R181: the last byte, NACKed. -/
theorem ReadDone.last {s : State} (hr : s.rem ≠ 0#16) (d : Byte) :
    ReadDone [d] s (stop .idle .readCompleted (received d s)) := by
  have hbyte : ∀ a, (stop .idle .readCompleted (received d s)).dataByte a =
      if a = s.next then d else s.dataByte a := fun a =>
    (dataByte_congr _ _ a (stop_mem _ _ _)).trans (received_dataByte hr d a)
  constructor
  · simp [stop]
  · simp [stop, received_count hr]
  · simp [stop]
  · simp [stop, push_evq, received]
  · intro k hk
    obtain rfl : k = 0 := by simpa using hk
    simp [hbyte]
  · intro a ha
    have hne : a ≠ s.next := by simpa using ha 0 (by simp)
    rw [hbyte, if_neg hne]

/-- R180: one byte more at the front, ACKed. -/
theorem ReadDone.cons {l : List Byte} {s u : State} {d : Byte} (hr : s.rem ≠ 0#16) (hl : l.length < 65535)
    (h : ReadDone l (mrDecide (received d s)) u) : ReadDone (d :: l) s u := by
  obtain ⟨hstate, hcount, hpending, hevq, hstored, hkept⟩ := h
  have hnext : (mrDecide (received d s)).next = s.next + 1#16 := received_next hr d
  have hbyte : ∀ a, (mrDecide (received d s)).dataByte a = if a = s.next then d else s.dataByte a :=
    received_dataByte hr d
  simp only [hnext, hbyte, ← add_ofNat_succ] at hstored hkept
  refine ⟨hstate, ?_, hpending, by simpa [mrDecide, received] using hevq, ?_, ?_⟩
  · rw [hcount, mrDecide, crWrite_count, received_count hr, List.length_cons, add_ofNat_succ s.count l.length]
  · intro k hk
    cases k with
    | zero =>
      have hother : ∀ k, k < l.length → s.next ≠ s.next + BitVec.ofNat 16 (k + 1) := fun k hk => by bv_omega
      simpa using hkept s.next hother
    | succ k => exact hstored k (Nat.lt_of_succ_lt_succ hk)
  · intro a ha
    have hne : a ≠ s.next := by simpa using ha 0 (by simp)
    rw [hkept a fun k hk => ha (k + 1) (Nat.succ_lt_succ hk), if_neg hne]

/-- R111: the reactions to the bytes of a read whose cursor has room for exactly these bytes. -/
theorem receiveBytes_done {l : List Byte} {s : State} (hl : l ≠ []) (hr : s.rem.toNat = l.length) :
    ∃ u, receiveBytes l s = .next u ∧ ReadDone l s u := by
  induction l generalizing s with
  | nil => exact absurd rfl hl
  | cons d rest ih =>
    have hroom : s.rem ≠ 0#16 := fun h => by simp [h] at hr
    cases rest with
    | nil => exact ⟨_, rfl, .last hroom d⟩
    | cons e rest =>
      have hr' : (mrDecide (received d s)).rem.toNat = (e :: rest).length := by
        rw [mrDecide, rem_crWrite, received_rem hroom, toNat_sub_one _ hroom]
        exact Nat.sub_eq_of_eq_add hr
      have hbound := s.rem.isLt
      rw [List.length_cons] at hr
      obtain ⟨u, hrun, hdone⟩ := ih (by simp) hr'
      exact ⟨u, hrun, hdone.cons hroom (by omega)⟩

/-- Where a read stands when the address byte has been ACKed (R147, R172, R179). -/
def readStarted (buf : Ptr) (size : Half) (s : State) : State :=
  mrDecide (sendAddress (requestAccept true (buildRaw buf size s)))

/-- R104, R147: the started read has its whole buffer before it. -/
theorem readStarted_rem {buf : Ptr} (hb : buf ≠ 0#16) (size : Half) (s : State) :
    (readStarted buf size s).rem = size := by
  have hseg : atSentinel (buildRaw buf size s).vec 0 = false := by
    simp [atSentinel, buildRaw, Descriptor.slot, hb]
  have hrem : (readStarted buf size s).rem = (requestAccept true (buildRaw buf size s)).rem := rfl
  rw [hrem, requestAccept_rem, segLoad_segment_rem _ _ hseg]
  rfl

/-- Settles O60: the read starts at its buffer with COUNT 0, and the received bytes fill it. -/
theorem ackedReadStoresEveryByteInOrder : Obligations.AckedReadStoresEveryByteInOrder := by
  unfold Obligations.AckedReadStoresEveryByteInOrder
  intro buf size bytes s hb hpos hmax hsize hm hidle
  have hlen : size.toNat = bytes.length := by rw [hsize, BitVec.toNat_ofNat]; omega
  have hne : size ≠ 0#16 := fun h => by simp [h] at hlen; omega
  have hrun : runInstrs [.rreq buf size, .start, .mrSlaAck] s = .next (readStarted buf size s) :=
    runInstrs_cons (exec_rreq_accepted hb hne hm hidle (by omega)) _
  obtain ⟨u, hu, hdone⟩ := receiveBytes_done (l := bytes) (s := readStarted buf size s)
    (List.ne_nil_of_length_pos hpos) (by rw [readStarted_rem hb, hlen])
  obtain ⟨hstate, hcount, hpending, hevq, hstored, hkept⟩ := hdone
  have hnext : (readStarted buf size s).next = buf := by
    simp [readStarted, mrDecide, sendAddress, requestAccept, segLoad_buildRaw]
  have hmem : ∀ a, (readStarted buf size s).dataByte a = s.dataByte a := fun a =>
    dataByte_congr s _ a (requestAccept_mem true (buildRaw buf size s))
  have hcount' : u.count = size := by
    rw [hcount, ← hsize]; simp [readStarted, mrDecide, sendAddress]
  simp only [hnext, hmem] at hstored hkept
  refine ⟨_, u, hrun, hu, hstate, hcount', hpending, ?_, hstored, hkept⟩
  rw [hevq, hcount']
  simp [readStarted, mrDecide, sendAddress, requestAccept, buildRaw]

end Sys2Proof.Machine
end

section
/-! SUPPORT. Proofs about the status decoder: the code number is SR with its low bits masked away, and it alone decides the
row, the condition and the arbitration-loss detector (R78, R120, R125, R126). -/

namespace Sys2Proof

/-- R78: the masked status byte is the code number with three zero bits below it. -/
theorem toNat_and_statusMask (sr : Byte) : (sr &&& 0xF8#8).toNat = statusCode sr * 8 := by
  have hcode : statusCode sr = sr.toNat >>> 3 := by
    rw [statusCode, BitVec.extractLsb'_toNat, Nat.shiftRight_eq_div_pow]
    omega
  calc (sr &&& 0xF8#8).toNat
      = sr.toNat &&& (2 ^ 5 - 1) <<< 3 := BitVec.toNat_and ..
    _ = (sr.toNat >>> 3) <<< 3 := and_topMask (k := 3) (n := 5) sr.isLt
    _ = statusCode sr * 8 := by rw [Nat.shiftLeft_eq, hcode]

/-- R120: two status bytes have one code number just when they agree outside SR[2:0]. -/
theorem statusCode_eq_iff (sr sr' : Byte) : statusCode sr = statusCode sr' ↔ sr &&& 0xF8#8 = sr' &&& 0xF8#8 := by
  rw [← BitVec.toNat_inj, toNat_and_statusMask, toNat_and_statusMask]
  omega

/-- The row is a function of the code number. -/
theorem decodeStatus_congr {sr sr' : Byte} (h : statusCode sr = statusCode sr') : decodeStatus sr = decodeStatus sr' := by
  rw [decodeStatus, decodeStatus, h]

/-- The condition is a function of the code number. -/
theorem decodeCondition_congr {sr sr' : Byte} (h : statusCode sr = statusCode sr') :
    decodeCondition sr = decodeCondition sr' := by
  rw [decodeCondition, decodeCondition, h]

/-- R121: ARB_LOST is the condition of one code number only; the combined codes have other conditions (R126). -/
theorem decodeCondition_eq_arbLost_iff (sr : Byte) : decodeCondition sr = .arbLost ↔ statusCode sr = 7 := by
  unfold decodeCondition
  split
  case h_28 => exact iff_of_false nofun ‹statusCode sr ≠ 7›
  all_goals
    next hcode => simp [hcode]

/-- R125: the detector by the masked status byte. -/
theorem arbLost_iff (sr : Byte) : arbLost sr = true ↔ sr &&& 0xF8#8 = 0x38#8 :=
  calc arbLost sr = true
      ↔ decodeCondition sr = .arbLost := beq_iff_eq
    _ ↔ statusCode sr = statusCode 0x38#8 := decodeCondition_eq_arbLost_iff sr
    _ ↔ sr &&& 0xF8#8 = 0x38#8 := statusCode_eq_iff sr 0x38#8

/-- Settles O39: bits 7:3 determine the code number, and the detector is true of code number 7. -/
theorem statusDecoderIgnoresTheLowBits : Obligations.StatusDecoderIgnoresTheLowBits := by
  unfold Obligations.StatusDecoderIgnoresTheLowBits
  intro sr sr'
  refine ⟨fun h => ?_, condition_decodeStatus sr, arbLost_iff sr⟩
  have hcode : statusCode sr = statusCode sr' := (statusCode_eq_iff sr sr').mpr h
  exact ⟨decodeStatus_congr hcode, decodeCondition_congr hcode⟩

end Sys2Proof
end

section
/-! SUPPORT. The HOST's side of the machine: the commands that bind, release, wait and poll (R141, R142, R148, R149),
the requests that are refused (R143), and the one turn a step takes (R60, R140, R162, R170, R222, R258). -/

namespace Sys2Proof.Machine

/-! ### BEGIN (R141) -/

/-- R141, R203: what a binding writes, as one record. -/
theorem bind_eq (role : Role) (dev ar : Byte) (target : Half) (s : State) :
    ∃ m l, bind role dev ar target s = { s with
      dev := dev
      target := target
      role := role
      sr := srWithPrescale s.sr s.params.prescale
      brr := s.params.bitrate
      pue := true
      ar := ar
      cr := (s.cr &&& 0x80#8) ||| 0x45#8
      state := .idle
      count := 0#16
      ix := 0
      next := 0#16
      last := 0#16
      busMode := m
      busLast := l } :=
  ⟨modeAfter s.busMode s.busLast idleCmd, lastEventAfter s.busMode s.busLast idleCmd, by simp [bind, crWrite]⟩

section
variable {a8 : Byte} {s : State}

/-- R74: A8[7] = 1 is illegal. -/
theorem exec_begin_illegal (h : a8.msb = true) (target : Half) :
    exec (.beginCmd a8 target) s = .next (respond illegal s) := if_pos h

/-- R141: an engine that is bound already answers false. -/
theorem exec_begin_of_bound (h : a8.msb = false) (hbound : s.role ≠ .none) (target : Half) :
    exec (.beginCmd a8 target) s = .next (respond resultFalse s) := by
  simp [exec, execBegin, h, hbound]

/-- R141: an unbound engine is bound as a master, with AR disarmed. -/
theorem exec_begin_of_unbound (h : a8.msb = false) (hunbound : s.role = .none) (target : Half) :
    exec (.beginCmd a8 target) s = .next (respond resultTrue (bind .master (busAddress a8) 0x00#8 target s)) := by
  simp [exec, execBegin, h, hunbound]

end

/-- Settles O4: the two refusals, and the binding as one record. -/
theorem beginBindsAMasterOrIsRefused : Obligations.BeginBindsAMasterOrIsRefused := by
  unfold Obligations.BeginBindsAMasterOrIsRefused
  intro a8 target s
  refine ⟨fun h => exec_begin_illegal h target, fun h hbound => exec_begin_of_bound h hbound target,
    fun h hunbound => ?_⟩
  obtain ⟨m, l, hbind⟩ := bind_eq .master (busAddress a8) 0x00#8 target s
  refine ⟨m, l, ?_⟩
  rw [exec_begin_of_unbound h hunbound, hbind]
  rfl

/-! ### END (R142) -/

section
variable {s : State}

/-- R142: nothing is bound. -/
theorem exec_end_of_unbound (h : s.role = .none) : exec .endCmd s = .next (respond resultFalse s) := if_pos h

/-- R142: with no completion target or no transfer in flight, END releases at once. -/
theorem exec_end_releases (hbound : s.role ≠ .none) (h : s.target = 0#16 ∨ s.busy = false) :
    exec .endCmd s =
      .next (respond resultTrue { crWrite offCmd s with role := .none, target := 0#16, callbackDue := false }) := by
  have hdrained : ¬ (s.target ≠ 0#16 ∧ s.busy = true) := by
    rintro ⟨htarget, hbusy⟩
    rcases h with h | h
    · exact htarget h
    · simp [h] at hbusy
  rw [exec, execEnd, if_neg hbound, if_neg hdrained]

end

/-- Settles O6: unbound, held, or released by OFF_CMD. -/
theorem endDrainsThenReleases : Obligations.EndDrainsThenReleases := by
  unfold Obligations.EndDrainsThenReleases
  intro s
  refine ⟨exec_end_of_unbound, fun hbound htarget hbusy => ?_, fun hbound h => ?_⟩
  · have hheld : Holds .endCmd s := ⟨hbusy, .inl ⟨rfl, hbound, htarget⟩⟩
    exact hheld.exec_eq
  · refine ⟨.off, lastEventAfter s.busMode s.busLast offCmd, ?_⟩
    rw [exec_end_releases hbound h, crWrite, crAfterWrite_off]
    rfl

/-! ### AWAIT and POLL (R148, R149) -/

/-- R148: out of flight AWAIT answers COUNT; the sleep mode is not read. -/
theorem exec_await_answers {s : State} (h : s.busy = false) (sleepMode : Byte) :
    exec (.awaitCmd sleepMode) s = .next (respond s.count s) := by
  simp [exec, execAwait, h]

/-- R149: POLL answers COUNT in every state. -/
theorem exec_poll (s : State) : exec .poll s = .next (respond s.count s) := rfl

/-- Settles O7: AWAIT is held in flight and answers out of flight, POLL answers always. -/
theorem awaitHoldsAndPollAnswersAtOnce : Obligations.AwaitHoldsAndPollAnswersAtOnce := by
  unfold Obligations.AwaitHoldsAndPollAnswersAtOnce
  intro sleepMode s
  refine ⟨fun hbusy => ?_, fun hfree => ⟨exec_await_answers hfree sleepMode, exec_poll s⟩⟩
  have hheld : Holds (.awaitCmd sleepMode) s := ⟨hbusy, .inr ⟨sleepMode, rfl⟩⟩
  exact ⟨hheld.exec_eq, exec_poll s⟩

/-! ### Refused requests (R143) -/

/-- R143: a request that fails one of the three tests answers -1; what the builder wrote is dropped. -/
theorem request_of_refused {total : Nat} {s : State} (h : s.role ≠ .master ∨ s.state ≠ .idle ∨ 32767 < total)
    (op : Bool) (built : State) : request op total built s = respond minusOne s :=
  if_pos ((requestRefused_iff total s).2 h)

/-- R147: a read request that fails a test of R143 is refused, with an empty buffer or not. -/
theorem exec_rreq_of_refused {size : Half} {s : State}
    (h : s.role ≠ .master ∨ s.state ≠ .idle ∨ 32767 < size.toNat) (buf : Ptr) :
    exec (.rreq buf size) s = .next (respond minusOne s) := by
  rw [exec, execRreq, request_of_refused h]
  exact ite_self _

/-- Settles O12: each request fails the tests on its own total. -/
theorem requestsAreRefusedWithoutAnyChange : Obligations.RequestsAreRefusedWithoutAnyChange := by
  unfold Obligations.RequestsAreRefusedWithoutAnyChange
  intro s buf size h16 h8
  exact ⟨fun h => congrArg Host.Outcome.next (request_of_refused h _ _),
    fun h => congrArg Host.Outcome.next (request_of_refused h _ _),
    fun h => congrArg Host.Outcome.next (request_of_refused h _ _), fun h => exec_rreq_of_refused h buf⟩

/-! ### The turn of a step (R60, R258) -/

/-- R60: a step is the first turn of the script. -/
theorem step_of_script {s : State} {turn : Turn} {rest : List Turn} (h : s.script = turn :: rest) :
    step s = takeTurn turn { s with script := rest } := by
  rw [step, h]

section
variable {s : State} {w : CmdWord}

/-- R140: the command step executes the instruction of the presented word. -/
theorem commandStep_of_decoded {i : Instr} (hp : s.port = .presented w) (hd : decodeCommand w = .ok i) :
    commandStep s = exec i s := by
  simp only [commandStep, hp, runCommand, hd]

/-- R162: an illegal word is answered -2. -/
theorem commandStep_of_illegal {r : Reject} (hp : s.port = .presented w) (hd : decodeCommand w = .error r) :
    commandStep s = .next (respond illegal s) := by
  simp only [commandStep, hp, runCommand, hd, refuse]

/-- R170: an enabled event step executes the reaction to SR. -/
theorem eventStep_of_enabled (h : s.eventEnabled = true) : eventStep s = exec (decodeStatus s.sr) s := by
  rw [eventStep, enterEvent, if_pos h, srValue_of_enabled s h]

/-- R170: an event step that is not enabled does nothing (log entry 4). -/
theorem eventStep_of_masked (h : s.eventEnabled = false) : eventStep s = .next s := by
  simp [eventStep, enterEvent, h]

/-- R222: out of flight, a command of a running call-back executes on the exchanged ports (log entry 14). -/
theorem callCommand_of_decoded {i : Instr} {t : State} (hcall : s.onRequest.isSome = true) (hfree : s.busy = false)
    (hd : decodeCommand w = .ok i) (h : exec i { swapPorts s with port := .presented w } = .next t) :
    callCommand w s = .next (swapPorts t) := by
  have hrun : commandStep { swapPorts s with port := .presented w } = .next t :=
    (commandStep_of_decoded rfl hd).trans h
  simp only [callCommand, hcall, hfree, callRun, hrun]
  rfl

/-- R140: the HOST's port is free when no word waits on it. -/
theorem portFree_iff (p : CommandPort) : portFree p = true ↔ ∀ v, p ≠ .presented v := by
  cases p <;> simp [portFree]

/-- R140: with a free port the HOST presents its word. -/
theorem hostPresent_of_free (h : ∀ v, s.port ≠ .presented v) (w : CmdWord) :
    hostPresent w s = { s with port := .presented w } := if_pos ((portFree_iff s.port).2 h)

/-- R63: with a free port the HOST stores its byte. -/
theorem hostStore_of_free (h : ∀ v, s.port ≠ .presented v) (a : Ptr) (b : Byte) :
    hostStore a b s = memWrite a b s := if_pos ((portFree_iff s.port).2 h)

/-- R160, R258: a HOST that waits presents nothing. -/
theorem hostPresent_of_presented {v : CmdWord} (hp : s.port = .presented v) (w : CmdWord) : hostPresent w s = s := by
  simp [hostPresent, portFree, hp]

/-- R160, R258: a HOST that waits stores nothing. -/
theorem hostStore_of_presented {v : CmdWord} (hp : s.port = .presented v) (a : Ptr) (b : Byte) :
    hostStore a b s = s := by
  simp [hostStore, portFree, hp]

end

/-- Settles O15: the words named are those the decoder rejects. -/
theorem illegalWordIsAnsweredMinusTwo : Obligations.IllegalWordIsAnsweredMinusTwo := by
  unfold Obligations.IllegalWordIsAnsweredMinusTwo
  intro s w rest hs hp hw
  obtain ⟨r, hd⟩ : ∃ r, decodeCommand w = .error r := (illegalCommandWordsAreExactlyThese w).2 hw
  exact (step_of_script hs).trans (commandStep_of_illegal hp hd)

/-- Settles O41: the turn of the step, agent by agent; no agent reads the script. -/
theorem stepRunsTheDecodedInstruction : Obligations.StepRunsTheDecodedInstruction := by
  unfold Obligations.StepRunsTheDecodedInstruction
  intro s rest
  have henabled : { s with script := rest }.eventEnabled = (s.int && s.ie && s.en) := rfl
  refine ⟨?command, ?event, ?masked, ?callBack, ?present, ?store, ?waiting⟩
  case command => exact fun w i hs hp hd => (step_of_script hs).trans (commandStep_of_decoded hp hd)
  case event =>
    intro hs hint hie hen i hd
    cases hd
    exact (step_of_script hs).trans (eventStep_of_enabled (by simp [henabled, hint, hie, hen]))
  case masked =>
    intro hs hmask
    have hmasked : { s with script := rest }.eventEnabled = false := by
      rcases hmask with h | h | h <;> simp [henabled, h]
    exact (step_of_script hs).trans (eventStep_of_masked hmasked)
  case callBack =>
    exact fun w i t hs hcall hfree hd h => (step_of_script hs).trans (callCommand_of_decoded hcall hfree hd h)
  case present =>
    intro w hs hp
    exact (step_of_script hs).trans (congrArg _ (hostPresent_of_free (s := { s with script := rest }) hp w))
  case store =>
    intro a b hs hp
    exact (step_of_script hs).trans (congrArg _ (hostStore_of_free (s := { s with script := rest }) hp a b))
  case waiting =>
    rintro w a b v (hs | hs) hp
    · exact (step_of_script hs).trans (congrArg _ (hostPresent_of_presented (s := { s with script := rest }) hp w))
    · exact (step_of_script hs).trans (congrArg _ (hostStore_of_presented (s := { s with script := rest }) hp a b))

end Sys2Proof.Machine
end

section
/-! SUPPORT. The reactions of a master (R172 to R185): the shared bodies as one record each, and the whole next state of every
condition that a master meets. -/

namespace Sys2Proof.Machine

/-! ### The shared operations as one record -/

/-- R31: a control word with bit 7 set clears INT; the other bits of CR are the word's own. -/
theorem crAfterWrite_of_clearing {v : Byte} (h : v.getLsbD 7 = true) (cr : Byte) : crAfterWrite cr v = v &&& 0x75#8 := by
  have hint : cr &&& ~~~v &&& 0x80#8 = 0#8 := by
    refine BitVec.eq_of_getLsbD_eq fun i hi => ?_
    by_cases h7 : i = 7
    · simp [h7, h]
    · have hmask : ∀ j < 8, j ≠ 7 → (0x80#8).getLsbD j = false := by decide
      simp [hmask i hi h7]
  rw [crAfterWrite, hint, BitVec.zero_or]

/-- R31, R84: a control word with bit 7 set, as one record: INT is cleared and the word is handed to the BUS agent. -/
theorem crWrite_handed {v : Byte} (h : v.getLsbD 7 = true) (s : State) :
    ∃ m l, crWrite v s = { s with cr := v &&& 0x75#8, pending := some ⟨v, s.dr⟩, busMode := m, busLast := l } :=
  ⟨modeAfter s.busMode s.busLast v, lastEventAfter s.busMode s.busLast v, by
    rw [crWrite, crAfterWrite_of_clearing h, pendingAfter_handed _ _ _ (.inl h)]⟩

/-- R260: a push, as one record. -/
theorem push_eq (ty : EventType) (s : State) :
    push ty s = { s with evq := if s.target = 0#16 then s.evq else s.evq ++ [⟨ty, s.target, s.count⟩] } := by
  unfold push; split <;> rfl

/-- R171: `stop`, as one record: STOP_CMD, the new STATE and the record with COUNT as it is. -/
theorem stop_eq (e : EngineState) (ty : EventType) (s : State) :
    ∃ m l, stop e ty s = { s with
      cr := 0x55#8
      pending := some ⟨0xD5#8, s.dr⟩
      state := e
      evq := if s.target = 0#16 then s.evq else s.evq ++ [⟨ty, s.target, s.count⟩]
      busMode := m
      busLast := l } := by
  obtain ⟨m, l, h⟩ := crWrite_handed (v := stopCmd) rfl s
  exact ⟨m, l, by rw [stop, push_eq, h]; rfl⟩

/-- R179: with two bytes of room or more the next byte is announced with ACK. -/
theorem mrDecide_ack {s : State} (h : 2 ≤ s.rem.toNat) :
    ∃ m l, mrDecide s = { s with cr := 0x45#8, pending := some ⟨0xC5#8, s.dr⟩, busMode := m, busLast := l } := by
  rw [mrDecide, masterAck, if_pos h]
  exact crWrite_handed rfl s

/-- R179: with less than two bytes of room the next byte is announced with NACK. -/
theorem mrDecide_nack {s : State} (h : s.rem.toNat < 2) :
    ∃ m l, mrDecide s = { s with cr := 0x05#8, pending := some ⟨0x85#8, s.dr⟩, busMode := m, busLast := l } := by
  rw [mrDecide, masterAck, if_neg (Nat.not_le.2 h)]
  exact crWrite_handed rfl s

/-- R180: the guarded store while there is room, as one record. -/
theorem storeByte_eq_of_room {s : State} (h : s.rem ≠ 0#16) :
    storeByte s = { s with
      mem := Memory.write s.mem s.next.toNat s.dr, next := s.next + 1#16, count := s.count + 1#16 } :=
  storeByte_of_room s h

/-- R105: a positive number of bytes left. -/
theorem rem_ne_zero_of_pos {s : State} (h : 0 < s.rem.toNat) : s.rem ≠ 0#16 := fun he => by
  rw [he] at h; exact absurd h (by decide)

/-- R180: the store takes one byte of the room. -/
theorem toNat_rem_storeByte {s : State} (h : s.rem ≠ 0#16) : (storeByte s).rem.toNat = s.rem.toNat - 1 := by
  rw [rem_storeByte_of_room s h, toNat_sub_one s.rem h]

/-! ### The address byte and the transmitter (R172, R173, R175, R176) -/

/-- Settles O16: DATA_CMD after the address byte has gone to DR. -/
theorem startSendsTheAddressByte : Obligations.StartSendsTheAddressByte := by
  unfold Obligations.StartSendsTheAddressByte
  intro s i hi
  obtain ⟨m, l, h⟩ := crWrite_handed (v := dataCmd) rfl { s with dr := s.addr }
  rcases hi with rfl | rfl <;> exact ⟨m, l, congrArg Host.Outcome.next h⟩

/-- Settles O18: one `mt_next()`: DATA_CMD after the load at NEXT, or `stop`, where `advance()` has landed. -/
theorem transmitAckSendsTheNextByteOrStops : Obligations.TransmitAckSendsTheNextByteOrStops := by
  unfold Obligations.TransmitAckSendsTheNextByteOrStops
  intro s i hi
  have hexec : exec i s = .next (mtNext s) := by rcases hi with rfl | rfl <;> rfl
  rw [hexec]
  constructor
  · intro hbyte
    obtain ⟨m, l, h⟩ := crWrite_handed (v := dataCmd) rfl (loadByte (advance s))
    refine ⟨m, l, ?_⟩
    rw [← advance_count s, ← (advance_sendFrame s).memRead_eq, mtNext_of_byte hbyte, h]
    rfl
  · intro hend
    obtain ⟨m, l, h⟩ := stop_eq .idle .writeCompleted (advance s)
    refine ⟨m, l, ?_⟩
    rw [← advance_dr s, ← advance_target s, ← advance_evq s, ← advance_count s, mtNext_of_end hend, h]

/-! ### The endings of a master transfer (R174, R177, R178, R182, R183) -/

/-- Settles O17: RELEASE_CMD, whose bit 4 is 0, and a record with -1. -/
theorem arbitrationLossAbortsWithoutStop : Obligations.ArbitrationLossAbortsWithoutStop := by
  unfold Obligations.ArbitrationLossAbortsWithoutStop
  intro s
  obtain ⟨m, l, h⟩ := crWrite_handed (v := releaseCmd) rfl s
  refine ⟨⟨m, l, ?_⟩, rfl⟩
  rw [exec, execArbLost, push_eq, h]
  rfl

/-- Settles O19: four times `stop`, with COUNT as it is or -1. -/
theorem dataNackIsANormalEndAddressNackAndBusErrorFail :
    Obligations.DataNackIsANormalEndAddressNackAndBusErrorFail := by
  unfold Obligations.DataNackIsANormalEndAddressNackAndBusErrorFail
  intro s
  constructor
  · obtain ⟨m, l, h⟩ := stop_eq .idle .writeCompleted s
    exact ⟨m, l, congrArg Host.Outcome.next h⟩
  · intro i hi
    obtain ⟨m, l, h⟩ := stop_eq .error .error { s with count := minusOne }
    rcases hi with rfl | rfl | rfl <;> exact ⟨m, l, congrArg Host.Outcome.next h⟩

/-! ### The receiver (R179 to R181) -/

/-- Settles O20: the decision on the room as it is. -/
theorem readAddressAckAnnouncesTheFirstByte : Obligations.ReadAddressAckAnnouncesTheFirstByte := by
  unfold Obligations.ReadAddressAckAnnouncesTheFirstByte
  intro s
  constructor
  · intro hroom
    obtain ⟨m, l, h⟩ := mrDecide_ack (s := s) hroom
    exact ⟨m, l, congrArg Host.Outcome.next h⟩
  · intro hroom
    obtain ⟨m, l, h⟩ := mrDecide_nack (s := s) hroom
    exact ⟨m, l, congrArg Host.Outcome.next h⟩

/-- Settles O21: the decision on the room after the store, which is one byte less while there is room. -/
theorem readDataAckStoresAndAnnounces : Obligations.ReadDataAckStoresAndAnnounces := by
  unfold Obligations.ReadDataAckStoresAndAnnounces
  intro s
  change (3 ≤ s.rem.toNat → _) ∧ (s.rem.toNat = 1 ∨ s.rem.toNat = 2 → _) ∧ (s.rem.toNat = 0 → _)
  refine ⟨fun hroom => ?_, fun hroom => ?_, fun hfull => ?_⟩
  · have hr : s.rem ≠ 0#16 := rem_ne_zero_of_pos (by omega)
    obtain ⟨m, l, h⟩ := mrDecide_ack (s := storeByte s) (by rw [toNat_rem_storeByte hr]; omega)
    refine ⟨m, l, ?_⟩
    rw [exec, execMrDataAck, h, storeByte_eq_of_room hr]
  · have hr : s.rem ≠ 0#16 := rem_ne_zero_of_pos (by omega)
    obtain ⟨m, l, h⟩ := mrDecide_nack (s := storeByte s) (by rw [toNat_rem_storeByte hr]; omega)
    refine ⟨m, l, ?_⟩
    rw [exec, execMrDataAck, h, storeByte_eq_of_room hr]
  · obtain ⟨m, l, h⟩ := mrDecide_nack (s := s) (by omega)
    refine ⟨m, l, ?_⟩
    rw [exec, execMrDataAck, storeByte_of_full s (BitVec.eq_of_toNat_eq hfull), h]

/-- Settles O22: the guarded store, then `stop` with the count after it. -/
theorem readDataNackStoresAndStops : Obligations.ReadDataNackStoresAndStops := by
  unfold Obligations.ReadDataNackStoresAndStops
  intro s
  obtain ⟨m, l, h⟩ := stop_eq .idle .readCompleted (storeByte s)
  have hexec : exec .mrDataNack s = .next (stop .idle .readCompleted (storeByte s)) := rfl
  rw [hexec, h]
  constructor
  · intro hroom
    rw [storeByte_eq_of_room (mt (rem_eq_zero_iff s).1 hroom)]
    exact ⟨m, l, rfl⟩
  · intro hfull
    rw [storeByte_of_full s ((rem_eq_zero_iff s).2 hfull)]
    exact ⟨m, l, rfl⟩

/-! ### NO_INFO and the unnamed codes (R184, R185) -/

/-- Settles O23: NO_INFO is the identity, the five codes are one body, RELEASE_CMD and IDLE. -/
theorem noInfoDoesNothingAndUnmappedResetsToIdle : Obligations.NoInfoDoesNothingAndUnmappedResetsToIdle := by
  unfold Obligations.NoInfoDoesNothingAndUnmappedResetsToIdle
  intro s
  refine ⟨rfl, fun i hi => ?_⟩
  obtain ⟨m, l, h⟩ := crWrite_handed (v := releaseCmd) rfl s
  have hreset : resetToIdle s = { s with
      cr := 0x45#8, pending := some ⟨0xC5#8, s.dr⟩, state := .idle, busMode := m, busLast := l } := by
    rw [resetToIdle, h]; rfl
  rcases hi with rfl | rfl | rfl | rfl | rfl <;> exact ⟨m, l, congrArg Host.Outcome.next hreset⟩

end Sys2Proof.Machine
end

section
/-! SUPPORT. What holds of every reaction: its control write clears INT (R170, R242), and it reads neither STATE nor ROLE
(R170). -/

namespace Sys2Proof.Machine

/-! ### The control write of a reaction (R31, R84) -/

/-- The last control write of `t` was `v`, which clears INT and is handed to the BUS agent. -/
structure HandsOver (v : Byte) (t : State) : Prop where
  clears : v.getLsbD 7 = true
  control : t.cr = v &&& 0x75#8
  pending : t.pending = some ⟨v, t.dr⟩

theorem crWrite_handsOver {v : Byte} (h : v.getLsbD 7 = true) (s : State) : HandsOver v (crWrite v s) :=
  ⟨h, crAfterWrite_of_clearing h s.cr, pendingAfter_handed _ _ _ (.inl h)⟩

/-- R260: a push comes after the control write and leaves it. -/
theorem HandsOver.push {v : Byte} {t : State} (h : HandsOver v t) (ty : EventType) : HandsOver v (push ty t) := by
  rw [push_eq]; exact { h with }

theorem stop_handsOver (e : EngineState) (ty : EventType) (s : State) : HandsOver stopCmd (stop e ty s) := by
  refine HandsOver.push ?_ ty
  exact { crWrite_handsOver (v := stopCmd) rfl s with }

theorem slaveWriteDone_handsOver (s : State) : HandsOver releaseCmd (slaveWriteDone s) := by
  rw [slaveWriteDone_eq, push_eq]
  exact { crWrite_handsOver (v := releaseCmd) rfl { s with ar := 0#8 } with }

theorem mtNext_handsOver (s : State) : ∃ v, HandsOver v (mtNext s) := by
  by_cases h : (advance s).rem = 0#16
  · rw [mtNext_of_end h]; exact ⟨_, stop_handsOver _ _ _⟩
  · rw [mtNext_of_byte h]; exact ⟨_, crWrite_handsOver rfl _⟩

/-- R84: each announcement of a received or transmitted byte is ACK_CMD or NACK_CMD. -/
theorem masterAck_eq_or (r : Half) : masterAck r = ackCmd ∨ masterAck r = nackCmd :=
  (masterAck_cases r).imp And.left And.left

theorem slaveAck_eq_or (r : Half) : slaveAck r = ackCmd ∨ slaveAck r = nackCmd :=
  (slaveAck_cases r).imp And.left And.left

theorem announce_handsOver {v : Byte} (h : v = ackCmd ∨ v = nackCmd) (s : State) : HandsOver v (crWrite v s) :=
  crWrite_handsOver (by rcases h with rfl | rfl <;> rfl) s

/-- R170: every reaction but NO_INFO's makes a control write that clears INT. -/
theorem exec_handsOver {i : Instr} {s t : State} (hc : i.condition.isSome = true) (hne : i ≠ .noInfo)
    (h : exec i s = .next t) : ∃ v, HandsOver v t := by
  cases i with
  | start | repStart => cases h; exact ⟨dataCmd, crWrite_handsOver rfl _⟩
  | mtSlaAck | mtDataAck => cases h; exact mtNext_handsOver s
  | mtDataNack | busError | mtSlaNack | mrSlaNack | mrDataNack => cases h; exact ⟨stopCmd, stop_handsOver _ _ _⟩
  | arbLost =>
    cases h
    refine ⟨releaseCmd, HandsOver.push ?_ _⟩
    exact { crWrite_handsOver (v := releaseCmd) rfl s with }
  | mrSlaAck | mrDataAck => cases h; exact ⟨_, announce_handsOver (masterAck_eq_or _) _⟩
  | srSlaAck | srArbLostSlaAck | srGcallAck | srArbLostGcallAck | srDataAck | srGcallDataAck | stSlaAck
  | stArbLostSlaAck | stDataAck => cases h; exact ⟨_, announce_handsOver (slaveAck_eq_or _) _⟩
  | srDataNack | srGcallDataNack | srStop => cases h; exact ⟨releaseCmd, slaveWriteDone_handsOver s⟩
  | stDataNack | stLastData => cases h; exact ⟨ackCmd, { crWrite_handsOver (v := ackCmd) rfl s with }⟩
  | unmappedD0 | unmappedD8 | unmappedE0 | unmappedE8 | unmappedF0 =>
    cases h; exact ⟨releaseCmd, { crWrite_handsOver (v := releaseCmd) rfl s with }⟩
  | noInfo => exact absurd rfl hne
  | _ => cases hc

/-- R31: INT is not among the bits that a control write sets. -/
theorem HandsOver.int_eq_false {v : Byte} {t : State} (h : HandsOver v t) : t.int = false := by
  simp [State.int, h.control]

/-- Settles O43: the control write clears INT, and with it the enabling of the event step and the status that SR shows. -/
theorem reactionsClearTheInterruptFlag : Obligations.ReactionsClearTheInterruptFlag := by
  unfold Obligations.ReactionsClearTheInterruptFlag
  intro i s t hc hne h
  obtain ⟨v, hv⟩ := exec_handsOver hc hne h
  have hint : t.int = false := hv.int_eq_false
  refine ⟨hint, by simp [State.eventEnabled, hint], ⟨v, hv.clears, hv.pending⟩,
    decodeCondition_srValue_of_clear t hint, fun u => ⟨fun hclear => ?_, srValue_of_int u⟩⟩
  simp [State.srValue, srWithStatus, hclear]

/-! ### The shared bodies that set STATE, and the loads of a slave (R171, R205, R215, R219) -/

@[simp] theorem stop_state (e : EngineState) (ty : EventType) (s : State) : (stop e ty s).state = e := by simp [stop]

@[simp] theorem slaveWriteDone_state (s : State) : (slaveWriteDone s).state = .idle := by simp [slaveWriteDone_eq]

/-- R205: the load of a slave buffer, as one record. -/
theorem slaveLoad_eq (b : Segment) (e : EngineState) (s : State) :
    slaveLoad b e s = { s with
      next := if b.buf = 0#16 then 0#16 else b.buf
      last := if b.buf = 0#16 then 0#16 else b.buf + b.len
      count := 0#16
      state := e } := by
  unfold slaveLoad; split <;> rfl

/-- R219: with no byte left a slave transmitter sends the filler. -/
theorem stLoad_of_empty (s : State) (h : s.rem = 0#16) : stLoad s = { s with dr := 0xFF#8 } := if_pos h

/-- R219: else a slave transmitter sends the byte at NEXT. -/
theorem stLoad_of_byte (s : State) (h : s.rem ≠ 0#16) : stLoad s = loadByte s := if_neg h

/-! ### STATE and ROLE are not read (R170) -/

/-- The state with another STATE and ROLE. -/
def relabel (e : EngineState) (r : Role) (s : State) : State := { s with state := e, role := r }

section
variable (e e' : EngineState) (r : Role) (s : State)

theorem crWrite_relabel (v : Byte) : crWrite v (relabel e r s) = relabel e r (crWrite v s) := rfl

theorem mrDecide_relabel : mrDecide (relabel e r s) = relabel e r (mrDecide s) := crWrite_relabel e r s (masterAck s.rem)

theorem srDecide_relabel : srDecide (relabel e r s) = relabel e r (srDecide s) := crWrite_relabel e r s (slaveAck s.rem)

theorem push_relabel (ty : EventType) : push ty (relabel e r s) = relabel e r (push ty s) := by
  rw [push_eq, push_eq]; rfl

theorem stop_relabel (ty : EventType) : stop e' ty (relabel e r s) = relabel e' r (stop e' ty s) :=
  push_relabel e' r { crWrite stopCmd s with state := e' } ty

theorem storeByte_relabel : storeByte (relabel e r s) = relabel e r (storeByte s) := by
  by_cases h : s.rem = 0#16
  · rw [storeByte_of_full s h, storeByte_of_full (relabel e r s) h]
  · rw [storeByte_of_room s h, storeByte_of_room (relabel e r s) h]; rfl

theorem stLoad_relabel : stLoad (relabel e r s) = relabel e r (stLoad s) := by
  by_cases h : s.rem = 0#16
  · rw [stLoad_of_empty s h, stLoad_of_empty (relabel e r s) h]; rfl
  · rw [stLoad_of_byte s h, stLoad_of_byte (relabel e r s) h]; rfl

theorem slaveLoad_relabel (b : Segment) : slaveLoad b e' (relabel e r s) = relabel e' r (slaveLoad b e' s) := by
  rw [slaveLoad_eq, slaveLoad_eq]; rfl

theorem segLoad_relabel (i : Fin 5) : segLoad i (relabel e r s) = relabel e r (segLoad i s) := by
  rw [segLoad_eq, segLoad_eq]; rfl

theorem advanceLoop_relabel (n : Nat) : advanceLoop n (relabel e r s) = relabel e r (advanceLoop n s) := by
  induction n generalizing s with
  | zero => rfl
  | succ n ih =>
    calc advanceLoop (n + 1) (relabel e r s)
        = if s.rem = 0#16 ∧ atSentinel s.vec s.ix = false
            then advanceLoop n (segLoad (s.ix + 1) (relabel e r s)) else relabel e r s := rfl
      _ = relabel e r (advanceLoop (n + 1) s) := by
        rw [segLoad_relabel, ih, advanceLoop, apply_ite (relabel e r)]

theorem advance_relabel : advance (relabel e r s) = relabel e r (advance s) := advanceLoop_relabel e r s 4

/-- R175: while a byte is left the transmitter keeps STATE; at the end of the descriptor it sets STATE to IDLE. -/
theorem mtNext_relabel : ∃ e', mtNext (relabel e r s) = relabel e' r (mtNext s) ∧
    (e' = (mtNext s).state ∨ e' = e ∧ (mtNext s).state = s.state) := by
  by_cases h : (advance s).rem = 0#16
  · have h' : (advance (relabel e r s)).rem = 0#16 := by rw [advance_relabel]; exact h
    rw [mtNext_of_end h, mtNext_of_end h', advance_relabel]
    exact ⟨.idle, stop_relabel _ _ _ _ _, .inl (stop_state _ _ _).symm⟩
  · have h' : (advance (relabel e r s)).rem ≠ 0#16 := by rw [advance_relabel]; exact h
    rw [mtNext_of_byte h, mtNext_of_byte h', advance_relabel]
    exact ⟨e, rfl, .inr ⟨rfl, advance_state s⟩⟩

theorem stNext_relabel : stNext (relabel e r s) = relabel e r (stNext s) := by
  rw [stNext, stLoad_relabel]
  exact crWrite_relabel e r (stLoad s) (slaveAck (stLoad s).rem)

theorem srAddressed_relabel : srAddressed (relabel e r s) = relabel .sr r (srAddressed s) := by
  have hload : srAddressed (relabel e r s) = srDecide (slaveLoad s.slvWr .sr (relabel e r s)) := rfl
  rw [hload, slaveLoad_relabel, srDecide_relabel, srAddressed]

theorem stAddressed_relabel : stAddressed (relabel e r s) = relabel .st r (stAddressed s) := by
  have hload : stAddressed (relabel e r s) = stNext (slaveLoad s.slvRd .st (relabel e r s)) := rfl
  rw [hload, slaveLoad_relabel, stNext_relabel, stAddressed]

theorem slaveWriteDone_relabel : slaveWriteDone (relabel e r s) = relabel .idle r (slaveWriteDone s) := by
  rw [slaveWriteDone_eq, slaveWriteDone_eq, push_eq, push_eq]; rfl

end

/-- R170: a reaction does the same from another STATE and ROLE; it sets STATE or keeps it. -/
theorem exec_relabel {i : Instr} {s t : State} (hc : i.condition.isSome = true) (h : exec i s = .next t)
    (e : EngineState) (r : Role) :
    ∃ e', exec i (relabel e r s) = .next (relabel e' r t) ∧ (e' = t.state ∨ e' = e ∧ t.state = s.state) := by
  cases i with
  | start | repStart | mrSlaAck | noInfo => cases h; exact ⟨e, rfl, .inr ⟨rfl, rfl⟩⟩
  | mtSlaAck | mtDataAck =>
    cases h
    obtain ⟨e', heq, he'⟩ := mtNext_relabel e r s
    exact ⟨e', congrArg Host.Outcome.next heq, he'⟩
  | mtDataNack =>
    cases h
    exact ⟨.idle, congrArg Host.Outcome.next (stop_relabel e .idle r s _), .inl (stop_state _ _ s).symm⟩
  | busError | mtSlaNack | mrSlaNack =>
    cases h
    exact ⟨.error, congrArg Host.Outcome.next (stop_relabel e .error r { s with count := minusOne } _),
      .inl (stop_state _ _ _).symm⟩
  | arbLost =>
    cases h
    refine ⟨.error, congrArg Host.Outcome.next ?_, .inl ?_⟩
    · exact push_relabel .error r { crWrite releaseCmd s with state := .error, count := minusOne } .error
    · rw [push_state]
  | mrDataAck =>
    cases h
    refine ⟨e, congrArg Host.Outcome.next ?_, .inr ⟨rfl, storeByte_state s⟩⟩
    rw [storeByte_relabel, mrDecide_relabel]
  | srDataAck | srGcallDataAck =>
    cases h
    refine ⟨e, congrArg Host.Outcome.next ?_, .inr ⟨rfl, storeByte_state s⟩⟩
    rw [storeByte_relabel, srDecide_relabel]
  | mrDataNack =>
    cases h
    refine ⟨.idle, ?_, .inl (stop_state _ _ _).symm⟩
    rw [exec, execMrDataNack, storeByte_relabel, stop_relabel]
  | srSlaAck | srArbLostSlaAck | srGcallAck | srArbLostGcallAck =>
    cases h
    exact ⟨.sr, congrArg Host.Outcome.next (srAddressed_relabel e r s), .inl (slaveLoad_state s.slvWr .sr s).symm⟩
  | srDataNack | srGcallDataNack | srStop =>
    cases h
    exact ⟨.idle, congrArg Host.Outcome.next (slaveWriteDone_relabel e r s), .inl (slaveWriteDone_state s).symm⟩
  | stSlaAck | stArbLostSlaAck =>
    cases h
    exact ⟨.st, congrArg Host.Outcome.next (stAddressed_relabel e r s),
      .inl ((stLoad_state _).trans (slaveLoad_state s.slvRd .st s)).symm⟩
  | stDataAck =>
    cases h
    exact ⟨e, congrArg Host.Outcome.next (stNext_relabel e r s), .inr ⟨rfl, stLoad_state s⟩⟩
  | stDataNack | stLastData | unmappedD0 | unmappedD8 | unmappedE0 | unmappedE8 | unmappedF0 =>
    cases h; exact ⟨.idle, rfl, .inl rfl⟩
  | _ => cases hc

/-- Settles O44: every shared body commutes with the change of STATE and ROLE. -/
theorem reactionsReadNeitherStateNorRole : Obligations.ReactionsReadNeitherStateNorRole := by
  unfold Obligations.ReactionsReadNeitherStateNorRole
  exact fun i s t e r hc h => exec_relabel hc h e r

end Sys2Proof.Machine
end

section
/-! SUPPORT. The transition table (R186): the rows of the slave's conditions and of the commands; the master's rows are the
whole next states of R172 to R185. -/

namespace Sys2Proof.Machine

/-! ### The rows of a slave -/

/-- R84: an announcement hands over ACK_CMD or NACK_CMD. -/
theorem announce_pending {v : Byte} (h : v = ackCmd ∨ v = nackCmd) (s : State) :
    (crWrite v s).pending = some ⟨0xC5#8, s.dr⟩ ∨ (crWrite v s).pending = some ⟨0x85#8, s.dr⟩ := by
  rcases h with rfl | rfl
  · exact .inl rfl
  · exact .inr rfl

/-- R180, R210: a stored byte is counted; with the cursor at its end none is stored. -/
theorem storeByte_count_cursor (s : State) :
    (storeByte s).count = if s.next = s.last then s.count else s.count + 1#16 := by
  simp only [storeByte_count, rem_eq_zero_iff]

/-- R219: a transmitted byte is counted; the filler is not. -/
theorem stLoad_count_cursor (s : State) :
    (stLoad s).count = if s.next = s.last then s.count else s.count + 1#16 := by
  simp only [stLoad_count, rem_eq_zero_iff]

/-- R205: a loaded slave buffer has no room exactly when it is null or empty. -/
theorem slaveLoad_next_eq_last_iff (b : Segment) (e : EngineState) (s : State) :
    (slaveLoad b e s).next = (slaveLoad b e s).last ↔ b.buf = 0#16 ∨ b.len = 0#16 := by
  rw [slaveLoad_eq]
  by_cases h : b.buf = 0#16
  · simp [h]
  · simp [h]

/-- R216: the first byte of an address match for reading is counted, the filler is not. -/
theorem stAddressed_count (s : State) :
    (stAddressed s).count = if s.slvRd.buf = 0#16 ∨ s.slvRd.len = 0#16 then 0#16 else 1#16 := by
  have hcount : (stAddressed s).count = (stLoad (slaveLoad s.slvRd .st s)).count := rfl
  rw [hcount, stLoad_count_cursor, slaveLoad_count]
  simp only [slaveLoad_next_eq_last_iff, BitVec.zero_add]

/-! ### The rows of the commands -/

/-- R143: the next STATE of a request. -/
theorem request_state (op : Bool) (total : Nat) (built s : State) :
    (request op total built s).state =
      if s.role = .master ∧ s.state = .idle ∧ total ≤ 32767 then (if op then .mr else .mt) else s.state := by
  by_cases h : s.role = .master ∧ s.state = .idle ∧ total ≤ 32767
  · rw [if_pos h]
    obtain ⟨hm, hidle, htotal⟩ := h
    rw [request_of_accepted hm hidle htotal, requestAccept_state]
  · have hrefused : s.role ≠ .master ∨ s.state ≠ .idle ∨ 32767 < total := by
      simpa only [not_and_or, Nat.not_le] using h
    rw [request_of_refused hrefused, respond_state, if_neg h]

/-- R144 to R146: the next STATE of a write request. -/
theorem exec_writeRequest_state {i : Instr} {s t : State} (hw : isWriteRequest i = true) (h : exec i s = .next t) :
    t.state = if s.role = .master ∧ s.state = .idle ∧ writeTotal i ≤ 32767 then .mt else s.state := by
  cases i with
  | wreq _ _ | wreq1 _ _ _ | wreq2 _ _ _ => cases h; exact request_state false _ _ s
  | _ => cases hw

/-- R147: the next STATE of a read request. -/
theorem exec_rreq_state {buf : Ptr} {size : Half} {s t : State} (h : exec (.rreq buf size) s = .next t) :
    t.state = if s.role = .master ∧ s.state = .idle ∧ size.toNat ≤ 32767 ∧ buf ≠ 0#16 ∧ size ≠ 0#16 then .mr
      else s.state := by
  simp only [exec, execRreq] at h
  split at h <;> cases h
  next hempty =>
    have hno : ¬ (buf ≠ 0#16 ∧ size ≠ 0#16) := not_and_or.2 (hempty.imp not_not.2 not_not.2)
    rw [if_neg fun ⟨_, _, _, hne⟩ => hno hne]
    rfl
  next hne =>
    rw [request_state]
    simp [not_or.1 hne]

/-- R141, R203: the next STATE of BEGIN and SBEGIN. -/
theorem exec_bind_state {i : Instr} {s t : State} (hb : isBind i = true) (h : exec i s = .next t) :
    t.state = if i.wellFormed = true ∧ s.role = .none then .idle else s.state := by
  cases i with
  | beginCmd a8 target | sbegin a8 target =>
    simp only [exec, execBegin, execSbegin] at h
    split at h
    next hill => cases h; simp [Instr.wellFormed, hill, refuse]
    next hleg =>
      split at h <;> cases h
      next hbound => simp [hbound]
      next hunbound =>
        rw [if_pos ⟨by simpa [Instr.wellFormed] using hleg, of_not_not hunbound⟩]
        rfl
  | _ => cases hb

/-- R142, R148, R149, R201, R202, R204: every other command keeps STATE and COUNT. -/
theorem exec_otherCommand_keeps {i : Instr} {s t : State} (hc : i.condition = none) (hb : isBind i = false)
    (hr : isRequest i = false) (h : exec i s = .next t) : t.state = s.state ∧ t.count = s.count := by
  cases i with
  | beginCmd _ _ | sbegin _ _ => cases hb
  | wreq _ _ | wreq1 _ _ _ | wreq2 _ _ _ | rreq _ _ => cases hr
  | endCmd | awaitCmd _ | setrb _ _ | setwb _ _ =>
    simp only [exec, execEnd, execAwait, execSetrb, execSetwb] at h
    repeat' split at h
    all_goals cases h; exact ⟨rfl, rfl⟩
  | poll => cases h; exact ⟨rfl, rfl⟩
  | rearm => obtain ⟨r, a, rfl⟩ := execRearm_cases h; exact ⟨rfl, rfl⟩
  | _ => cases hc

/-- Settles O45: a master's rows are the whole next states of its reactions; the others are the rows above. -/
theorem transitionRelationOfStateCountCommandAndEvents :
    Obligations.TransitionRelationOfStateCountCommandAndEvents := by
  unfold Obligations.TransitionRelationOfStateCountCommandAndEvents
  intro i s t h
  refine ⟨?start, ?arbLost, ?byteSent, ?writeEnd, ?failed, ?readAddress, ?byteStored, ?readEnd, ?noInfo, ?unmapped,
    ?srAddress, ?srEnd, ?stAddress, ?stByte, ?stEnd, exec_bind_state (h := h), exec_writeRequest_state (h := h), ?read,
    exec_otherCommand_keeps (h := h)⟩
  case start =>
    intro hi
    obtain ⟨m, l, ht⟩ := startSendsTheAddressByte s i hi
    cases h.symm.trans ht
    exact ⟨rfl, rfl, rfl, rfl⟩
  case arbLost =>
    rintro rfl
    obtain ⟨⟨m, l, ht⟩, -⟩ := arbitrationLossAbortsWithoutStop s
    cases h.symm.trans ht
    exact ⟨rfl, rfl, rfl, rfl⟩
  case byteSent =>
    intro hi hbyte
    obtain ⟨m, l, ht⟩ := (transmitAckSendsTheNextByteOrStops s i hi).1 hbyte
    cases h.symm.trans ht
    exact ⟨advance_state s, rfl, rfl, advance_evq s⟩
  case writeEnd =>
    rintro (⟨hi, hend⟩ | rfl)
    · obtain ⟨m, l, ht⟩ := (transmitAckSendsTheNextByteOrStops s i hi).2 hend
      cases h.symm.trans ht
      exact ⟨rfl, advance_count s, by simp, by simp⟩
    · obtain ⟨⟨m, l, ht⟩, -⟩ := dataNackIsANormalEndAddressNackAndBusErrorFail s
      cases h.symm.trans ht
      exact ⟨rfl, rfl, rfl, rfl⟩
  case failed =>
    intro hi
    obtain ⟨m, l, ht⟩ := (dataNackIsANormalEndAddressNackAndBusErrorFail s).2 i hi
    cases h.symm.trans ht
    exact ⟨rfl, rfl, rfl, rfl⟩
  case readAddress =>
    rintro rfl
    cases h
    exact ⟨rfl, rfl, rfl, announce_pending (masterAck_eq_or s.rem) s⟩
  case byteStored =>
    have row : ∀ v, v = ackCmd ∨ v = nackCmd → t = crWrite v (storeByte s) →
        t.state = s.state ∧ t.count = (if s.next = s.last then s.count else s.count + 1#16) ∧ t.evq = s.evq ∧
        (t.pending = some ⟨0xC5#8, t.dr⟩ ∨ t.pending = some ⟨0x85#8, t.dr⟩) := by
      rintro v hv rfl
      exact ⟨storeByte_state s, storeByte_count_cursor s, storeByte_evq s, announce_pending hv (storeByte s)⟩
    rintro (rfl | rfl | rfl) <;> cases h
    · exact row _ (masterAck_eq_or _) rfl
    · exact row _ (slaveAck_eq_or _) rfl
    · exact row _ (slaveAck_eq_or _) rfl
  case readEnd =>
    rintro rfl
    cases h
    obtain ⟨m, l, ht⟩ := stop_eq .idle .readCompleted (storeByte s)
    rw [ht]
    exact ⟨rfl, storeByte_count_cursor s, rfl, by simp⟩
  case noInfo =>
    rintro rfl
    cases h
    rfl
  case unmapped =>
    intro hc
    have hi : i = .unmappedD0 ∨ i = .unmappedD8 ∨ i = .unmappedE0 ∨ i = .unmappedE8 ∨ i = .unmappedF0 := by
      cases i <;> simp_all [Instr.condition]
    obtain ⟨m, l, ht⟩ := (noInfoDoesNothingAndUnmappedResetsToIdle s).2 i hi
    cases h.symm.trans ht
    exact ⟨rfl, rfl, rfl, rfl⟩
  case srAddress =>
    intro hi
    obtain rfl : t = srAddressed s := by rcases hi with rfl | rfl | rfl | rfl <;> (cases h; rfl)
    exact ⟨slaveLoad_state _ _ _, slaveLoad_count _ _ _, slaveLoad_evq _ _ _, announce_pending (slaveAck_eq_or _) _⟩
  case srEnd =>
    intro hi
    obtain rfl : t = slaveWriteDone s := by rcases hi with rfl | rfl | rfl <;> (cases h; rfl)
    rw [slaveWriteDone_eq, push_eq]
    exact ⟨rfl, rfl, rfl, rfl⟩
  case stAddress =>
    intro hi
    obtain rfl : t = stAddressed s := by rcases hi with rfl | rfl <;> (cases h; rfl)
    exact ⟨(stLoad_state _).trans (slaveLoad_state s.slvRd .st s), stAddressed_count s,
      (stLoad_evq _).trans (slaveLoad_evq s.slvRd .st s), announce_pending (slaveAck_eq_or _) _⟩
  case stByte =>
    rintro rfl
    cases h
    exact ⟨stLoad_state s, stLoad_count_cursor s, stLoad_evq s, announce_pending (slaveAck_eq_or _) _⟩
  case stEnd =>
    rintro (rfl | rfl) <;> (cases h; exact ⟨rfl, rfl, rfl, rfl⟩)
  case read =>
    rintro buf size rfl
    exact exec_rreq_state h

end Sys2Proof.Machine
end

section
/-! SUPPORT. Every turn answers a next state and leaves the turns to come and the parameters (R60, R170, R253, R285). -/

namespace Sys2Proof.Machine

/-! ### What no agent writes -/

/-- R60, R285: the turns to come and the parameters, which no agent writes. -/
structure TurnFrame (s t : State) : Prop where
  script : t.script = s.script
  params : t.params = s.params

theorem TurnFrame.refl (s : State) : TurnFrame s s := ⟨rfl, rfl⟩

theorem TurnFrame.trans {s t u : State} (h : TurnFrame s t) (h' : TurnFrame t u) : TurnFrame s u :=
  ⟨h'.script.trans h.script, h'.params.trans h.params⟩

theorem crWrite_turnFrame (v : Byte) (s : State) : TurnFrame s (crWrite v s) := ⟨rfl, rfl⟩

theorem stop_turnFrame (e : EngineState) (ty : EventType) (s : State) : TurnFrame s (stop e ty s) := by
  constructor <;> simp [stop]

theorem failWithStop_turnFrame (s : State) : TurnFrame s (failWithStop s) := by
  constructor <;> simp [failWithStop, stop]

theorem mtNext_turnFrame (s : State) : TurnFrame s (mtNext s) := by
  unfold mtNext mtSend
  split
  · exact TurnFrame.trans ⟨advance_script s, advance_params s⟩ (stop_turnFrame _ _ _)
  · exact ⟨advance_script s, advance_params s⟩

theorem storeByte_turnFrame (s : State) : TurnFrame s (storeByte s) := ⟨storeByte_script s, storeByte_params s⟩

theorem slaveLoad_turnFrame (b : Segment) (e : EngineState) (s : State) : TurnFrame s (slaveLoad b e s) :=
  ⟨slaveLoad_script b e s, slaveLoad_params b e s⟩

theorem stNext_turnFrame (s : State) : TurnFrame s (stNext s) := ⟨stLoad_script s, stLoad_params s⟩

theorem slaveWriteDone_turnFrame (s : State) : TurnFrame s (slaveWriteDone s) := by
  rw [slaveWriteDone_eq, push_eq]; exact ⟨rfl, rfl⟩

/-- R143: a request keeps what its builder kept. -/
theorem request_turnFrame {built s : State} (h : TurnFrame s built) (op : Bool) (total : Nat) :
    TurnFrame s (request op total built s) := by
  unfold request
  split
  · exact ⟨rfl, rfl⟩
  · exact h.trans ⟨segLoad_script 0 built, segLoad_params 0 built⟩

/-! ### The instructions -/

theorem exec_command_turnFrame {i : Instr} {s t : State} (hc : i.condition = none) (h : exec i s = .next t) :
    TurnFrame s t := by
  cases i with
  | beginCmd _ _ | sbegin _ _ | endCmd | awaitCmd _ | setrb _ _ | setwb _ _ =>
    simp only [exec, execBegin, execSbegin, execEnd, execAwait, execSetrb, execSetwb] at h
    repeat' split at h
    all_goals cases h; exact ⟨rfl, rfl⟩
  | wreq _ _ | wreq1 _ _ _ | wreq2 _ _ _ => cases h; refine request_turnFrame ?_ _ _; exact ⟨rfl, rfl⟩
  | rreq buf size =>
    simp only [exec, execRreq] at h
    split at h <;> cases h
    · exact ⟨rfl, rfl⟩
    · refine request_turnFrame ?_ _ _; exact ⟨rfl, rfl⟩
  | poll => cases h; exact ⟨rfl, rfl⟩
  | rearm => obtain ⟨r, a, rfl⟩ := execRearm_cases h; exact ⟨rfl, rfl⟩
  | _ => cases hc

theorem exec_reaction_turnFrame {i : Instr} {s t : State} (hc : i.condition.isSome = true) (h : exec i s = .next t) :
    TurnFrame s t := by
  cases i with
  | start | repStart | mrSlaAck | stDataNack | stLastData | unmappedD0 | unmappedD8 | unmappedE0 | unmappedE8
  | unmappedF0 | noInfo => cases h; exact ⟨rfl, rfl⟩
  | mtSlaAck | mtDataAck => cases h; exact mtNext_turnFrame s
  | mtDataNack => cases h; exact stop_turnFrame _ _ s
  | busError | mtSlaNack | mrSlaNack => cases h; exact failWithStop_turnFrame s
  | arbLost => cases h; rw [push_eq]; exact ⟨rfl, rfl⟩
  | mrDataAck | srDataAck | srGcallDataAck => cases h; exact (storeByte_turnFrame s).trans (crWrite_turnFrame _ _)
  | mrDataNack => cases h; exact (storeByte_turnFrame s).trans (stop_turnFrame _ _ _)
  | srSlaAck | srArbLostSlaAck | srGcallAck | srArbLostGcallAck =>
    cases h; exact (slaveLoad_turnFrame s.slvWr .sr s).trans (crWrite_turnFrame _ _)
  | srDataNack | srGcallDataNack | srStop => cases h; exact slaveWriteDone_turnFrame s
  | stSlaAck | stArbLostSlaAck => cases h; exact (slaveLoad_turnFrame s.slvRd .st s).trans (stNext_turnFrame _)
  | stDataAck => cases h; exact stNext_turnFrame s
  | _ => cases hc

/-- R170, R253: every instruction answers a next state, with the same turns to come and the same parameters. -/
theorem exec_answers (i : Instr) (s : State) : ∃ t, exec i s = .next t ∧ TurnFrame s t := by
  obtain ⟨t, h⟩ := exec_next i s
  refine ⟨t, h, ?_⟩
  cases hc : i.condition with
  | none => exact exec_command_turnFrame hc h
  | some c => exact exec_reaction_turnFrame (by rw [hc]; rfl) h

/-! ### The turns -/

theorem commandStep_answers (s : State) : ∃ t, commandStep s = .next t ∧ TurnFrame s t := by
  unfold commandStep runCommand
  split
  · split
    · exact exec_answers _ s
    · exact ⟨_, rfl, rfl, rfl⟩
  all_goals exact ⟨s, rfl, .refl s⟩

theorem eventStep_answers (s : State) : ∃ t, eventStep s = .next t ∧ TurnFrame s t := by
  unfold eventStep
  split
  · exact exec_answers _ s
  · exact ⟨s, rfl, .refl s⟩

theorem callRun_answers (w : CmdWord) (s : State) : ∃ t, callRun w s = .next t ∧ TurnFrame s t := by
  obtain ⟨u, hu, hf⟩ := commandStep_answers { swapPorts s with port := .presented w }
  refine ⟨swapPorts u, by rw [callRun, hu]; rfl, ?_⟩
  exact { hf with }

theorem callCommand_answers (w : CmdWord) (s : State) : ∃ t, callCommand w s = .next t ∧ TurnFrame s t := by
  unfold callCommand
  split
  · exact callRun_answers w s
  · exact ⟨s, rfl, .refl s⟩

theorem callReturn_answers (s : State) : ∃ t, callReturn s = .next t ∧ TurnFrame s t := by
  unfold callReturn
  split
  · obtain ⟨t, ht, hf⟩ := callRun_answers rearmWord { s with onRequest := none }
    exact ⟨t, ht, { hf with }⟩
  · exact ⟨s, rfl, .refl s⟩

theorem finish_turnFrame (s : State) : TurnFrame s (finish s) := by
  unfold finish
  split
  · exact .refl s
  · split <;> exact ⟨rfl, rfl⟩

/-- R60: every turn of every agent answers a next state and leaves the other turns and the parameters. -/
theorem takeTurn_answers (turn : Turn) (s : State) : ∃ t, takeTurn turn s = .next t ∧ TurnFrame s t := by
  cases turn with
  | reset => exact ⟨_, rfl, rfl, rfl⟩
  | hostPresent w => refine ⟨_, rfl, ?_⟩; unfold hostPresent; split <;> exact ⟨rfl, rfl⟩
  | hostStore a b => refine ⟨_, rfl, ?_⟩; unfold hostStore; split <;> exact ⟨rfl, rfl⟩
  | command => exact commandStep_answers s
  | event => exact eventStep_answers s
  | deliver code data => refine ⟨_, rfl, ?_⟩; unfold deliver; split <;> exact ⟨rfl, rfl⟩
  | finish => exact ⟨_, rfl, finish_turnFrame s⟩
  | dispatch => refine ⟨_, rfl, ?_⟩; unfold dispatch; split <;> exact ⟨rfl, rfl⟩
  | callCommand w => exact callCommand_answers w s
  | callStore a b => refine ⟨_, rfl, ?_⟩; unfold callStore; split <;> exact ⟨rfl, rfl⟩
  | callReturn => exact callReturn_answers s

/-- Settles O42: with no turn left the state answers itself; else the first turn is taken from the script. -/
theorem everyStepHasANextStateAndTakesOneTurn : Obligations.EveryStepHasANextStateAndTakesOneTurn := by
  unfold Obligations.EveryStepHasANextStateAndTakesOneTurn
  intro s
  cases hs : s.script with
  | nil => exact ⟨s, by rw [step, hs], hs, rfl⟩
  | cons turn rest =>
    obtain ⟨t, ht, hf⟩ := takeTurn_answers turn { s with script := rest }
    exact ⟨t, (step_of_script hs).trans ht, hf.script, hf.params⟩

end Sys2Proof.Machine
end

section
/-! SUPPORT. The slave role (44_slave_role.md): its commands SBEGIN, SETRB, SETWB and REARM (R201 to R204), and the whole next
state of every slave condition (R206 to R221), from the shared bodies as one record each (R205, R215, R219). -/

namespace Sys2Proof.Machine

/-! ### The commands (R201 to R204) -/

section
variable {a8 : Byte} {s : State}

/-- R203: an engine that is bound already answers false. -/
theorem exec_sbegin_of_bound (h : a8.msb = false) (hbound : s.role ≠ .none) (target : Half) :
    exec (.sbegin a8 target) s = .next (respond resultFalse s) := by
  simp [exec, execSbegin, h, hbound]

/-- R203: an unbound engine is bound as a slave, armed at its own address, with no call-back due. -/
theorem exec_sbegin_of_unbound (h : a8.msb = false) (hunbound : s.role = .none) (target : Half) :
    exec (.sbegin a8 target) s = .next (respond resultTrue
      { bind .slave (busAddress a8) (busAddress a8) target s with callbackDue := false }) := by
  simp [exec, execSbegin, h, hunbound]

end

/-- Settles O5: the two refusals, and the binding as one record. -/
theorem sbeginBindsAnArmedSlaveOrIsRefused : Obligations.SbeginBindsAnArmedSlaveOrIsRefused := by
  unfold Obligations.SbeginBindsAnArmedSlaveOrIsRefused
  intro a8 target s
  refine ⟨fun hill => if_pos hill, fun h hbound => exec_sbegin_of_bound h hbound target, fun h hunbound => ?_⟩
  obtain ⟨m, l, hbind⟩ := bind_eq .slave (busAddress a8) (busAddress a8) target s
  refine ⟨m, l, ?_⟩
  rw [exec_sbegin_of_unbound h hunbound, hbind]
  rfl

section
variable {s : State} {size : Half}

/-- R201, R202: in flight, or with more than 32767 bytes, no slave buffer is registered. -/
theorem exec_setBuffer_refused (h : s.busy = true ∨ 32767 < size.toNat) (buf : Ptr) :
    exec (.setrb buf size) s = .next (respond minusOne s) ∧ exec (.setwb buf size) s = .next (respond minusOne s) := by
  rcases h with hbusy | hlong
  · exact ⟨if_pos hbusy, if_pos hbusy⟩
  · simp [exec, execSetrb, execSetwb, refuse, hlong]

/-- R201, R202: out of flight a buffer of up to 32767 bytes is registered, bound or not. -/
theorem exec_setBuffer_accepted (hfree : s.busy = false) (hsize : size.toNat ≤ 32767) (buf : Ptr) :
    exec (.setrb buf size) s = .next (respond accepted { s with slvRd := ⟨buf, size⟩ }) ∧
      exec (.setwb buf size) s = .next (respond accepted { s with slvWr := ⟨buf, size⟩ }) := by
  have hshort : ¬ 32767 < size.toNat := Nat.not_lt.2 hsize
  simp [exec, execSetrb, execSetwb, hfree, hshort]

end

/-- Settles O13: the two tests of SETRB and SETWB, then the register written. -/
theorem slaveBuffersAreRegisteredWhenNotInFlight : Obligations.SlaveBuffersAreRegisteredWhenNotInFlight := by
  unfold Obligations.SlaveBuffersAreRegisteredWhenNotInFlight
  exact fun buf size s =>
    ⟨fun h => exec_setBuffer_refused h buf, fun hfree hsize => exec_setBuffer_accepted hfree hsize buf⟩

/-- Settles O14: both outcomes clear CALLBACK_DUE; only a bound slave writes AR. -/
theorem rearmArmsABoundSlave : Obligations.RearmArmsABoundSlave := by
  unfold Obligations.RearmArmsABoundSlave
  exact fun s => ⟨fun hother => if_pos hother, fun hslave => if_neg (not_not.2 hslave)⟩

/-! ### The shared bodies as one record -/

/-- R206, R219: with a byte left the slave announces ACK. -/
theorem slaveAck_announces_ack {r : Half} (h : 1 ≤ r.toNat) (s : State) :
    ∃ m l, crWrite (slaveAck r) s =
      { s with cr := 0x45#8, pending := some ⟨0xC5#8, s.dr⟩, busMode := m, busLast := l } := by
  rw [slaveAck, if_pos h]
  exact crWrite_handed rfl s

/-- R206, R219: with no byte left the slave announces NACK. -/
theorem slaveAck_announces_nack {r : Half} (h : r.toNat = 0) (s : State) :
    ∃ m l, crWrite (slaveAck r) s =
      { s with cr := 0x05#8, pending := some ⟨0x85#8, s.dr⟩, busMode := m, busLast := l } := by
  rw [slaveAck, if_neg (by omega)]
  exact crWrite_handed rfl s

/-- R205: a buffer that is not null is loaded from its start to its end. -/
theorem slaveLoad_of_buffer {b : Segment} (hb : b.buf ≠ 0#16) (e : EngineState) (s : State) :
    slaveLoad b e s = { s with next := b.buf, last := b.buf + b.len, count := 0#16, state := e } := if_neg hb

/-- R205: of a null or an empty buffer nothing is loaded. -/
theorem slaveLoad_of_nothing {b : Segment} (h : b.buf = 0#16 ∨ b.len = 0#16) (e : EngineState) (s : State) :
    slaveLoad b e s = { s with next := b.buf, last := b.buf, count := 0#16, state := e } := by
  by_cases hb : b.buf = 0#16
  · simp [slaveLoad, hb]
  · rw [slaveLoad_of_buffer hb, h.resolve_left hb, BitVec.add_zero]

/-- R105, R205: the bytes left in a loaded buffer are its length. -/
theorem slaveLoad_rem_of_buffer {b : Segment} (hb : b.buf ≠ 0#16) (e : EngineState) (s : State) :
    (slaveLoad b e s).rem = b.len := by
  rw [slaveLoad_of_buffer hb]
  exact add_sub_cancel_left b.buf b.len

/-- R105, R205: with a null or an empty buffer no byte is left. -/
theorem slaveLoad_rem_of_nothing {b : Segment} (h : b.buf = 0#16 ∨ b.len = 0#16) (e : EngineState) (s : State) :
    (slaveLoad b e s).rem = 0#16 := (rem_eq_zero_iff _).2 ((slaveLoad_next_eq_last_iff b e s).2 h)

/-- R219: the loaded byte is one byte less left. -/
theorem toNat_rem_loadByte {s : State} (h : s.rem ≠ 0#16) : (loadByte s).rem.toNat = s.rem.toNat - 1 := by
  rw [rem_loadByte, toNat_sub_one s.rem h]

/-- R219: `st_next()` with a byte left. -/
theorem stNext_of_byte {s : State} (h : s.rem ≠ 0#16) :
    stNext s = crWrite (slaveAck (loadByte s).rem) (loadByte s) := by
  rw [stNext, stLoad_of_byte s h]

/-- R219: the next byte is loaded and another remains after it. -/
theorem stNext_announces_more {s : State} (h : 2 ≤ s.rem.toNat) :
    ∃ m l, stNext s = { s with
      dr := memRead s.next s
      next := s.next + 1#16
      count := s.count + 1#16
      cr := 0x45#8
      pending := some ⟨0xC5#8, memRead s.next s⟩
      busMode := m
      busLast := l } := by
  have hr : s.rem ≠ 0#16 := rem_ne_zero_of_pos (by omega)
  rw [stNext_of_byte hr]
  exact slaveAck_announces_ack (by rw [toNat_rem_loadByte hr]; omega) (loadByte s)

/-- R219: the last byte is loaded. -/
theorem stNext_announces_last {s : State} (h : s.rem.toNat = 1) :
    ∃ m l, stNext s = { s with
      dr := memRead s.next s
      next := s.next + 1#16
      count := s.count + 1#16
      cr := 0x05#8
      pending := some ⟨0x85#8, memRead s.next s⟩
      busMode := m
      busLast := l } := by
  have hr : s.rem ≠ 0#16 := rem_ne_zero_of_pos (by omega)
  rw [stNext_of_byte hr]
  exact slaveAck_announces_nack (by rw [toNat_rem_loadByte hr]; omega) (loadByte s)

/-- R219: with no byte left the filler is sent, uncounted. -/
theorem stNext_sends_filler {s : State} (h : s.rem = 0#16) :
    ∃ m l, stNext s = { s with
      dr := 0xFF#8, cr := 0x05#8, pending := some ⟨0x85#8, 0xFF#8⟩, busMode := m, busLast := l } := by
  rw [stNext, stLoad_of_empty s h]
  have hrem : State.rem { s with dr := 0xFF#8 } = 0#16 := h
  exact slaveAck_announces_nack (by rw [hrem]; rfl) _

/-! ### The slave receiver (R206 to R215) -/

/-- Settles O24: the decision on the room of the loaded buffer. -/
theorem slaveReceiveMatchLoadsTheWriteBuffer : Obligations.SlaveReceiveMatchLoadsTheWriteBuffer := by
  unfold Obligations.SlaveReceiveMatchLoadsTheWriteBuffer
  intro s i hi
  have hexec : exec i s = .next (crWrite (slaveAck (slaveLoad s.slvWr .sr s).rem) (slaveLoad s.slvWr .sr s)) := by
    rcases hi with rfl | rfl | rfl | rfl <;> rfl
  rw [hexec]
  constructor
  · intro hbuf hlen
    have hroom : 1 ≤ s.slvWr.len.toNat := Nat.pos_of_ne_zero fun h0 => hlen (BitVec.eq_of_toNat_eq h0)
    rw [slaveLoad_rem_of_buffer hbuf, slaveLoad_of_buffer hbuf]
    obtain ⟨m, l, h⟩ := slaveAck_announces_ack hroom _
    exact ⟨m, l, congrArg Host.Outcome.next h⟩
  · intro hnone
    rw [slaveLoad_rem_of_nothing hnone, slaveLoad_of_nothing hnone]
    obtain ⟨m, l, h⟩ := slaveAck_announces_nack (r := 0#16) rfl _
    exact ⟨m, l, congrArg Host.Outcome.next h⟩

/-- Settles O25: the decision on the room after the guarded store. -/
theorem slaveDataAckStoresAndAnnounces : Obligations.SlaveDataAckStoresAndAnnounces := by
  unfold Obligations.SlaveDataAckStoresAndAnnounces
  intro s i hi
  have hexec : exec i s = .next (crWrite (slaveAck (storeByte s).rem) (storeByte s)) := by
    rcases hi with rfl | rfl <;> rfl
  rw [hexec]
  change (2 ≤ s.rem.toNat → _) ∧ (s.rem.toNat = 1 → _) ∧ (s.rem.toNat = 0 → _)
  refine ⟨fun hroom => ?_, fun hlast => ?_, fun hfull => ?_⟩
  · have hr : s.rem ≠ 0#16 := rem_ne_zero_of_pos (by omega)
    obtain ⟨m, l, h⟩ := slaveAck_announces_ack (r := (storeByte s).rem) (by rw [toNat_rem_storeByte hr]; omega)
      (storeByte s)
    exact ⟨m, l, by rw [h, storeByte_eq_of_room hr]⟩
  · have hr : s.rem ≠ 0#16 := rem_ne_zero_of_pos (by omega)
    obtain ⟨m, l, h⟩ := slaveAck_announces_nack (r := (storeByte s).rem) (by rw [toNat_rem_storeByte hr]; omega)
      (storeByte s)
    exact ⟨m, l, by rw [h, storeByte_eq_of_room hr]⟩
  · rw [storeByte_of_full s (BitVec.eq_of_toNat_eq hfull)]
    obtain ⟨m, l, h⟩ := slaveAck_announces_nack hfull s
    exact ⟨m, l, congrArg Host.Outcome.next h⟩

/-- Settles O26: RELEASE_CMD after AR is disarmed, then the push and the call-back. -/
theorem slaveWritePhaseEndsDisarmed : Obligations.SlaveWritePhaseEndsDisarmed := by
  unfold Obligations.SlaveWritePhaseEndsDisarmed
  intro s i hi
  have hexec : exec i s = .next (slaveWriteDone s) := by rcases hi with rfl | rfl | rfl <;> rfl
  obtain ⟨m, l, h⟩ := crWrite_handed (v := releaseCmd) rfl { s with ar := 0#8 }
  refine ⟨m, l, ?_⟩
  rw [hexec, slaveWriteDone_eq, push_eq, h]
  rfl

/-! ### The slave transmitter (R216 to R221) -/

/-- Settles O27: `st_next()` on the loaded buffer. -/
theorem slaveTransmitMatchLoadsTheReadBuffer : Obligations.SlaveTransmitMatchLoadsTheReadBuffer := by
  unfold Obligations.SlaveTransmitMatchLoadsTheReadBuffer
  intro s i hi
  have hexec : exec i s = .next (stNext (slaveLoad s.slvRd .st s)) := by rcases hi with rfl | rfl <;> rfl
  rw [hexec]
  refine ⟨fun hbuf hlen => ?_, fun hbuf hlen => ?_, fun hnone => ?_⟩
  · obtain ⟨m, l, h⟩ := stNext_announces_more (s := slaveLoad s.slvRd .st s) (by rwa [slaveLoad_rem_of_buffer hbuf])
    exact ⟨m, l, by rw [h, slaveLoad_of_buffer hbuf]; rfl⟩
  · obtain ⟨m, l, h⟩ := stNext_announces_last (s := slaveLoad s.slvRd .st s)
      (by rw [slaveLoad_rem_of_buffer hbuf, hlen]; rfl)
    exact ⟨m, l, by rw [h, slaveLoad_of_buffer hbuf, hlen]; rfl⟩
  · obtain ⟨m, l, h⟩ := stNext_sends_filler (slaveLoad_rem_of_nothing hnone .st s)
    exact ⟨m, l, by rw [h, slaveLoad_of_nothing hnone]⟩

/-- Settles O28: `st_next()` on the cursor as it is. -/
theorem slaveTransmitAckLoadsTheNextByte : Obligations.SlaveTransmitAckLoadsTheNextByte := by
  unfold Obligations.SlaveTransmitAckLoadsTheNextByte
  intro s
  refine ⟨fun hmore => ?_, fun hlast => ?_, fun hnone => ?_⟩
  · obtain ⟨m, l, h⟩ := stNext_announces_more (s := s) hmore
    exact ⟨m, l, congrArg Host.Outcome.next h⟩
  · obtain ⟨m, l, h⟩ := stNext_announces_last (s := s) hlast
    exact ⟨m, l, congrArg Host.Outcome.next h⟩
  · obtain ⟨m, l, h⟩ := stNext_sends_filler (s := s) (BitVec.eq_of_toNat_eq hnone)
    exact ⟨m, l, congrArg Host.Outcome.next h⟩

/-- Settles O29: ACK_CMD and IDLE, with AR and the event queue as they are. -/
theorem slaveTransmitEndsArmedWithoutEvent : Obligations.SlaveTransmitEndsArmedWithoutEvent := by
  unfold Obligations.SlaveTransmitEndsArmedWithoutEvent
  intro s i hi
  have hexec : exec i s = .next { crWrite ackCmd s with state := .idle } := by rcases hi with rfl | rfl <;> rfl
  obtain ⟨m, l, h⟩ := crWrite_handed (v := ackCmd) rfl s
  refine ⟨m, l, ?_⟩
  rw [hexec, h]
  rfl

end Sys2Proof.Machine
end

section
/-! SUPPORT. The BUS agent (R230, R231, R236): the mode after a control command, a delivery, and the finishing of a command
that has no answer. -/

namespace Sys2Proof.Machine

/-! ### The mode after a control command (R231) -/

section
variable {s : State}

/-- R231: the mode follows the last event of the transfer. -/
theorem crWrite_busMode_of_last {l : Option Condition} (h : s.busLast = l) (v : Byte) :
    (crWrite v s).busMode = modeAfter s.busMode l v := h ▸ rfl

/-- R231: IDLE_CMD turns the controller on. -/
theorem crWrite_idle_busMode (h : s.busMode = .off) : (crWrite idleCmd s).busMode = .free := by
  rw [crWrite_busMode, modeAfter_idle, if_pos h]

/-! ### A delivery (R230) -/

/-- R230: the BUS agent delivers while EN is 1 and INT is 0. -/
theorem deliver_of_enabled (hen : s.en = true) (hint : s.int = false) (code data : Byte) :
    deliver code data s = { s with
      sr := srWithStatus s.sr code
      dr := if bringsByte (decodeCondition code) then data else s.dr
      pending := none
      cr := crWithInt s.cr
      busLast := some (decodeCondition code) } := if_pos (by simp [hen, hint])

/-- R230: while EN is 0 or INT is 1 it takes no step. -/
theorem deliver_of_blocked (h : s.en = false ∨ s.int = true) (code data : Byte) : deliver code data s = s :=
  if_neg (by rcases h with h | h <;> simp [h])

/-- R230: the status codes of the events that bring a byte. -/
theorem bringsByte_decodeCondition (code : Byte) :
    bringsByte (decodeCondition code) =
      [0x50#8, 0x58#8, 0x80#8, 0x88#8, 0x90#8, 0x98#8].contains (code &&& 0xF8#8) := by
  revert code; decide

/-! ### Finishing a command (R236) -/

/-- R236: with nothing pending there is nothing to finish. -/
theorem finish_of_none (h : s.pending = none) : finish s = s := by rw [finish, h]

/-- R236: a command that has no answer is finished when the BUS agent can take a step; OFF_CMD always. -/
theorem finish_of_noAnswer {p : BusCommand} (hp : s.pending = some p) (hno : noAnswer s.busMode p = true)
    (h : p.cmd = offCmd ∨ s.en = true ∧ s.int = false) :
    finish s = { s with pending := none, cr := if p.cmd = stopCmd then crWithoutSto s.cr else s.cr } := by
  simp only [finish, hp]
  exact if_pos (by rcases h with h | ⟨hen, hint⟩ <;> simp [*])

/-- R236: a command that has an answer is not finished. -/
theorem finish_of_answer {p : BusCommand} (hp : s.pending = some p) (h : noAnswer s.busMode p = false) : finish s = s := by
  simp [finish, hp, h]

/-- R230: while EN is 0 or INT is 1 the BUS agent finishes nothing but OFF_CMD. -/
theorem finish_of_blocked {p : BusCommand} (hp : s.pending = some p) (hoff : p.cmd ≠ offCmd)
    (h : s.en = false ∨ s.int = true) : finish s = s := by
  simp only [finish, hp]
  exact if_neg (by rcases h with h | h <;> simp [h, hoff])

/-- R236: which commands have an answer. -/
theorem noAnswer_eq_false {m : BusMode} {v : Byte} (d : Byte) (hstop : v ≠ stopCmd) (hoff : v ≠ offCmd)
    (hrelease : v = releaseCmd → m ≠ .free) : noAnswer m ⟨v, d⟩ = false := by
  simpa [noAnswer, hstop, hoff] using hrelease

end

/-- Settles O50: each clause is the table of `modeAfter` at the last event. -/
theorem controlCommandsMoveTheBusMode : Obligations.ControlCommandsMoveTheBusMode := by
  unfold Obligations.ControlCommandsMoveTheBusMode
  intro s
  refine ⟨rfl, crWrite_idle_busMode, rfl, rfl, ?start, ?mt, ?mr, ?sr, ?st, ?ended⟩
  case start | mt => rintro (h | h) <;> exact crWrite_busMode_of_last h _
  case mr | sr | st => rintro (h | h) <;> exact ⟨crWrite_busMode_of_last h _, crWrite_busMode_of_last h _⟩
  case ended => rintro c h (rfl | rfl | rfl | rfl | rfl | rfl) <;> exact crWrite_busMode_of_last h _

/-- Settles O51: a delivery or a finishing turn, enabled or not, on the state with the turn taken from the script. -/
theorem busTurnsDeliverAndFinish : Obligations.BusTurnsDeliverAndFinish := by
  unfold Obligations.BusTurnsDeliverAndFinish
  intro s code data rest
  let u : State := { s with script := rest }
  have hdeliver {t : State} (hs : s.script = .deliver code data :: rest) (h : deliver code data u = t) :
      step s = .next t := (step_of_script hs).trans (congrArg Host.Outcome.next h)
  have hfinish {t : State} (hs : s.script = .finish :: rest) (h : finish u = t) : step s = .next t :=
    (step_of_script hs).trans (congrArg Host.Outcome.next h)
  refine ⟨fun hs hen hint => hdeliver hs ?_, fun hs h => hdeliver hs (deliver_of_blocked (s := u) h code data),
    fun d hs hp hen hint => hfinish hs (finish_of_noAnswer (s := u) hp rfl (.inr ⟨hen, hint⟩)),
    fun d hs hp => hfinish hs (finish_of_noAnswer (s := u) hp rfl (.inl rfl)),
    fun d hs hp hfree hen hint => hfinish hs (finish_of_noAnswer (s := u) hp ?_ (.inr ⟨hen, hint⟩)),
    fun v d hs hp hstop hoff hm => hfinish hs (finish_of_answer (s := u) hp (noAnswer_eq_false d hstop hoff hm)),
    fun v d hs hp hoff h => hfinish hs (finish_of_blocked (s := u) hp hoff h),
    fun hs hp => hfinish hs (finish_of_none (s := u) hp)⟩
  · rw [deliver_of_enabled (s := u) hen hint, bringsByte_decodeCondition]; rfl
  · exact Bool.or_eq_true_iff.2 (.inr (by simp [releaseCmd, u, hfree]))

end Sys2Proof.Machine
end

section
/-! SUPPORT. The bus controller contract (R246): its table row by row, and what a row says of the event it allows. -/

namespace Sys2Proof.Machine

/-- R246, R233: the rows of the contract, as premises on the BUS agent's mode and its pending command. -/
inductive LegalEvent (s : State) (c : Condition) : Prop where
  | addressed (hmode : s.busMode = .free) (harmed : s.armed = true) (hpending : s.pending = none)
      (hc : c = .srSlaAck ∨ c = .stSlaAck)
  | started (d : Byte) (hmode : s.busMode = .mStart) (hpending : s.pending = some ⟨startCmd, d⟩)
      (hlast : s.busLast = none) (hc : c = .start)
  | restarted (d : Byte) (hmode : s.busMode = .mStart) (hpending : s.pending = some ⟨startCmd, d⟩)
      (hlast : s.busLast ≠ none) (hc : c = .repStart)
  | writeAddressed (d : Byte) (hmode : s.busMode = .mAddr) (hpending : s.pending = some ⟨dataCmd, d⟩)
      (hbit : d.getLsbD 0 = false) (hc : c = .mtSlaAck ∨ c = .mtSlaNack ∨ c = .arbLost ∨ c = .busError)
  | readAddressed (d : Byte) (hmode : s.busMode = .mAddr) (hpending : s.pending = some ⟨dataCmd, d⟩)
      (hbit : d.getLsbD 0 = true) (hc : c = .mrSlaAck ∨ c = .mrSlaNack ∨ c = .arbLost ∨ c = .busError)
  | byteSent (d : Byte) (hmode : s.busMode = .mTx) (hpending : s.pending = some ⟨dataCmd, d⟩)
      (hc : c = .mtDataAck ∨ c = .mtDataNack ∨ c = .arbLost ∨ c = .busError)
  | readAcked (d : Byte) (hmode : s.busMode = .mRx) (hpending : s.pending = some ⟨ackCmd, d⟩)
      (hc : c = .mrDataAck ∨ c = .busError)
  | readNacked (d : Byte) (hmode : s.busMode = .mRx) (hpending : s.pending = some ⟨nackCmd, d⟩)
      (hc : c = .mrDataNack ∨ c = .arbLost ∨ c = .busError)
  | receiveAcked (d : Byte) (hmode : s.busMode = .sRx) (hpending : s.pending = some ⟨ackCmd, d⟩)
      (hc : c = .srDataAck ∨ c = .srStop ∨ c = .busError)
  | receiveNacked (d : Byte) (hmode : s.busMode = .sRx) (hpending : s.pending = some ⟨nackCmd, d⟩)
      (hc : c = .srDataNack ∨ c = .srStop ∨ c = .busError)
  | sendAcked (d : Byte) (hmode : s.busMode = .sTx) (hpending : s.pending = some ⟨ackCmd, d⟩)
      (hc : c = .stDataAck ∨ c = .stDataNack ∨ c = .busError)
  | sendNacked (d : Byte) (hmode : s.busMode = .sTx) (hpending : s.pending = some ⟨nackCmd, d⟩)
      (hc : c = .stDataNack ∨ c = .stLastData ∨ c = .busError)

/-- R240: when the BUS agent may deliver an address match. -/
theorem armed_iff (s : State) : s.armed = true ↔
    s.en = true ∧ s.ea = true ∧ s.ar ≠ 0#8 ∧ s.busMode = .free ∧ s.int = false := by
  simp [State.armed, and_assoc]

/-- R246: with no command pending only an address match can come. -/
theorem legalNext_of_none {s : State} (hp : s.pending = none) (hmode : s.busMode ≠ .free) : legalNext s = [] := by
  unfold legalNext
  split <;> simp_all

/-- R246: an event that `legalNext` lists is one of a row. -/
theorem legalEvent_of_mem {s : State} {c : Condition} (h : c ∈ legalNext s) : LegalEvent s c := by
  by_cases hfree : s.busMode = .free
  · simp only [legalNext, hfree, Option.isNone_iff_eq_none, Bool.and_eq_true] at h
    split at h
    next hready => exact .addressed hfree hready.1 hready.2 (by simpa using h)
    next => cases h
  cases hp : s.pending with
  | none => rw [legalNext_of_none hp hfree] at h; cases h
  | some p =>
    obtain ⟨v, d⟩ := p
    cases hm : s.busMode with
    | off => simp [legalNext, hm] at h
    | free => exact absurd hm hfree
    | mStart =>
      simp only [legalNext, hm, hp] at h
      split at h
      next hv =>
        subst hv
        split at h
        next hl => exact .started d hm hp hl (by simpa using h)
        next hl => exact .restarted d hm hp (by simp [hl]) (by simpa using h)
      next => cases h
    | mAddr =>
      simp only [legalNext, hm, hp] at h
      split at h
      next hv =>
        subst hv
        split at h
        next hbit => exact .writeAddressed d hm hp hbit (by simpa using h)
        next hbit => exact .readAddressed d hm hp (by simpa using hbit) (by simpa using h)
      next => cases h
    | mTx =>
      simp only [legalNext, hm, hp] at h
      split at h
      next hv => subst hv; exact .byteSent d hm hp (by simpa using h)
      next => cases h
    | mRx =>
      simp only [legalNext, hm, hp] at h
      split at h
      next hv => subst hv; exact .readAcked d hm hp (by simpa using h)
      next =>
        split at h
        next hv => subst hv; exact .readNacked d hm hp (by simpa using h)
        next => cases h
    | sRx =>
      simp only [legalNext, hm, hp] at h
      split at h
      next hv => subst hv; exact .receiveAcked d hm hp (by simpa using h)
      next =>
        split at h
        next hv => subst hv; exact .receiveNacked d hm hp (by simpa using h)
        next => cases h
    | sTx =>
      simp only [legalNext, hm, hp] at h
      split at h
      next hv => subst hv; exact .sendAcked d hm hp (by simpa using h)
      next =>
        split at h
        next hv => subst hv; exact .sendNacked d hm hp (by simpa using h)
        next => cases h

/-- R246: an event of a row is one that `legalNext` lists. -/
theorem LegalEvent.mem {s : State} {c : Condition} (h : LegalEvent s c) : c ∈ legalNext s := by
  have hne : ackCmd ≠ nackCmd := by decide
  cases h with
  | addressed hmode harmed hpending hc => simpa [legalNext, hmode, harmed, hpending] using hc
  | started d hmode hpending hlast hc => simpa [legalNext, hmode, hpending, hlast] using hc
  | restarted d hmode hpending hlast hc =>
    obtain ⟨l, hl⟩ := Option.ne_none_iff_exists'.1 hlast
    simpa [legalNext, hmode, hpending, hl] using hc
  | writeAddressed d hmode hpending hbit hc | readAddressed d hmode hpending hbit hc =>
    rw [legalNext, hmode, hpending]
    simpa only [if_true, hbit, Bool.true_eq_false, if_false, List.mem_cons, List.not_mem_nil, or_false] using hc
  | byteSent d hmode hpending hc => simpa [legalNext, hmode, hpending] using hc
  | readAcked d hmode hpending hc | receiveAcked d hmode hpending hc | sendAcked d hmode hpending hc =>
    simpa [legalNext, hmode, hpending] using hc
  | readNacked d hmode hpending hc | receiveNacked d hmode hpending hc | sendNacked d hmode hpending hc =>
    simpa [legalNext, hmode, hpending, hne.symm] using hc

/-- R246: the contract allows a delivery just when the event it brings is one of a row. -/
theorem legalDelivery_iff (s : State) (code : Byte) :
    legalDelivery s code = true ↔ LegalEvent s (decodeCondition code) := by
  rw [legalDelivery, List.contains_iff_mem]
  exact ⟨legalEvent_of_mem, LegalEvent.mem⟩

/-! ### What a row says of the event -/

section
variable {s : State} {c : Condition}

/-- R240: in mode FREE only an address match of an armed slave is allowed. -/
theorem LegalEvent.of_free (h : LegalEvent s c) (hfree : s.busMode = .free) :
    s.armed = true ∧ addressMatch c = true := by
  cases h with
  | addressed _ harmed _ hc => exact ⟨harmed, by rcases hc with rfl | rfl <;> rfl⟩
  | _ => simp_all

/-- R247 (a): the contract delivers no excluded condition, as long as a START it answers begins a transfer. -/
theorem LegalEvent.deliverable (h : LegalEvent s c) (hfresh : s.busMode = .mStart → s.busLast = none) :
    deliverable c = true := by
  cases h with
  | restarted d hmode _ hlast _ => exact absurd (hfresh hmode) hlast
  | started d _ _ _ hc => subst hc; rfl
  | addressed _ _ _ hc | readAcked _ _ _ hc => rcases hc with rfl | rfl <;> rfl
  | readNacked _ _ _ hc | receiveAcked _ _ _ hc | receiveNacked _ _ _ hc | sendAcked _ _ _ hc | sendNacked _ _ _ hc =>
    rcases hc with rfl | rfl | rfl <;> rfl
  | writeAddressed _ _ _ _ hc | readAddressed _ _ _ _ hc => rcases hc with rfl | rfl | rfl | rfl <;> rfl
  | byteSent _ _ _ hc => rcases hc with rfl | rfl | rfl | rfl <;> rfl

/-- R244: ST_DATA_ACK answers ACK_CMD of a slave transmitter. -/
theorem LegalEvent.of_stDataAck (h : LegalEvent s .stDataAck) :
    s.busMode = .sTx ∧ ∃ d, s.pending = some ⟨ackCmd, d⟩ := by
  cases h with
  | sendAcked d hmode hpending _ => exact ⟨hmode, d, hpending⟩
  | _ => simp_all

/-- R231, R246: an allowed event belongs to the transfer that the mode and the address byte belong to. -/
theorem LegalEvent.eventAgrees {e : EngineState} (h : LegalEvent s c) (hmode : modeAgrees s.busMode e)
    (hdir : s.busMode = .mAddr → ∀ d, s.pending = some ⟨dataCmd, d⟩ → (d.getLsbD 0 = true ↔ e = .mr)) :
    eventAgrees c e := by
  cases h with
  | addressed _ _ _ hc => rcases hc with rfl | rfl <;> trivial
  | started d hm _ _ hc | restarted d hm _ _ hc => rw [hm] at hmode; subst hc; exact hmode
  | writeAddressed d hm hp hbit hc =>
    rw [hm] at hmode
    have hmt : e = .mt := hmode.resolve_right fun he => Bool.false_ne_true (hbit.symm.trans ((hdir hm d hp).2 he))
    rcases hc with rfl | rfl | rfl | rfl
    exacts [hmt, hmt, hmode, trivial]
  | readAddressed d hm hp hbit hc =>
    rw [hm] at hmode
    have hmr : e = .mr := (hdir hm d hp).1 hbit
    rcases hc with rfl | rfl | rfl | rfl
    exacts [hmr, hmr, hmode, trivial]
  | byteSent _ hm _ hc =>
    rw [hm] at hmode
    rcases hc with rfl | rfl | rfl | rfl
    exacts [hmode, hmode, .inl hmode, trivial]
  | readAcked _ hm _ hc =>
    rw [hm] at hmode
    rcases hc with rfl | rfl
    exacts [hmode, trivial]
  | readNacked _ hm _ hc =>
    rw [hm] at hmode
    rcases hc with rfl | rfl | rfl
    exacts [hmode, .inr hmode, trivial]
  | receiveAcked _ hm _ hc | receiveNacked _ hm _ hc | sendAcked _ hm _ hc | sendNacked _ hm _ hc =>
    rw [hm] at hmode
    rcases hc with rfl | rfl | rfl
    exacts [hmode, hmode, trivial]

end

end Sys2Proof.Machine
end

section
/-! SUPPORT. What the invariants of contract runs read of a state, and a step that leaves it (R246). -/

namespace Sys2Proof.Machine

/-! ### What the invariants read -/

/-- The part of a state that `ContractInv`, `RoomInv` and `FlightInv` speak of. -/
structure ContractView where
  state : EngineState
  role : Role
  count : Half
  addr : Byte
  rem : Half
  int : Bool
  event : Condition
  mode : BusMode
  last : Option Condition
  pending : Option BusCommand

/-- That part of `s`. -/
def State.contractView (s : State) : ContractView :=
  ⟨s.state, s.role, s.count, s.addr, s.rem, s.int, decodeCondition s.sr, s.busMode, s.busLast, s.pending⟩

section
variable {s t : State}

theorem ContractInv.of_view (h : ContractInv s) (hv : t.contractView = s.contractView) : ContractInv t := by
  simp only [State.contractView, ContractView.mk.injEq] at hv
  obtain ⟨hstate, hrole, hcount, haddr, hrem, hint, hevent, hmode, hlast, hpending⟩ := hv
  constructor <;> simp only [State.busy, hstate, hrole, hcount, hint, hevent, hmode, hlast]
  exacts [h.offUnbound, h.transferBusy, h.freeEvent, h.startFresh, h.waitingEvent, h.waitingLast, h.errorCount,
    h.errorEvent]

theorem RoomInv.of_view (h : RoomInv s) (hv : t.contractView = s.contractView) : RoomInv t := by
  simp only [State.contractView, ContractView.mk.injEq] at hv
  obtain ⟨hstate, hrole, hcount, haddr, hrem, hint, hevent, hmode, hlast, hpending⟩ := hv
  constructor <;>
    simp only [readWaiting, readAnswering, hstate, hrole, haddr, hrem, hint, hevent, hmode, hlast, hpending]
  exacts [h.readWaits, h.readAnswers, h.transmitWaits, h.transmitAnswers]

theorem FlightInv.of_view (h : FlightInv s) (hv : t.contractView = s.contractView) : FlightInv t := by
  simp only [State.contractView, ContractView.mk.injEq] at hv
  obtain ⟨hstate, hrole, hcount, haddr, hrem, hint, hevent, hmode, hlast, hpending⟩ := hv
  constructor <;> simp only [State.busy, hstate, hrole, hint, hevent, hmode, hlast, hpending]
  exacts [h.unboundIdle, h.idleEvent, h.staleIdle, h.mode, h.direction, h.event]

/-! ### A step that keeps the invariants -/

/-- A step from `s`, where the invariant of contract runs holds, to `t` keeps that invariant, the one of room in transfers
and, if it abandons no transfer (R293), the one of runs that abandon none. -/
structure KeepsContract (s t : State) : Prop where
  contract : ContractInv t
  room : RoomInv s → RoomInv t
  flight : FlightInv s → KeepsTransfers s t → FlightInv t

/-- A step that the invariants do not see. -/
theorem KeepsContract.of_view (h : ContractInv s) (hv : t.contractView = s.contractView) : KeepsContract s t :=
  ⟨h.of_view hv, fun hr => hr.of_view hv, fun hf _ => hf.of_view hv⟩

/-- What the invariants do not see may change before and after a step. -/
theorem KeepsContract.congr {s' t' : State} (h : KeepsContract s t) (hs : s'.contractView = s.contractView)
    (ht : t'.contractView = t.contractView) : KeepsContract s' t' where
  contract := h.contract.of_view ht
  room hr := (h.room (hr.of_view hs.symm)).of_view ht
  flight hf hk := by
    refine (h.flight (hf.of_view hs.symm) ?_).of_view ht
    simp only [State.contractView, ContractView.mk.injEq] at hs ht
    simpa only [KeepsTransfers, State.busy, hs, ht] using hk

/-! ### After a control write that clears INT

No event waits, so each invariant asks for the mode, the pending command and the room alone. -/

theorem ContractInv.of_answered (hint : t.int = false) (hbound : t.role ≠ .none) (hoff : t.busMode ≠ .off)
    (hbusy : t.busMode = .free ∨ t.busy = true) (hfresh : t.busMode = .free ∨ t.busMode = .mStart → t.busLast = none)
    (herror : t.state = .error → t.count = 0xFFFF#16) : ContractInv t where
  offUnbound := iff_of_false hoff hbound
  transferBusy _ hfree := hbusy.resolve_left hfree
  freeEvent hfree := .inl (hfresh (.inl hfree))
  startFresh hstart _ := hfresh (.inr hstart)
  waitingEvent h := by simp [hint] at h
  waitingLast h := by simp [hint] at h
  errorCount := herror
  errorEvent _ _ h := by simp [hint] at h

theorem RoomInv.of_answered (hint : t.int = false) (hread : t.state = .mr → readWaiting t)
    (hsend : t.state = .st → ∀ d, t.pending = some ⟨ackCmd, d⟩ → 1 ≤ t.rem.toNat) : RoomInv t where
  readWaits _ hmr _ := hread hmr
  readAnswers _ _ h := by simp [hint] at h
  transmitWaits _ hst _ _ := hsend hst
  transmitAnswers _ _ h := by simp [hint] at h

theorem FlightInv.of_answered (hint : t.int = false) (hbound : t.role ≠ .none) (hmode : modeAgrees t.busMode t.state)
    (hdir : t.busMode = .mAddr → ∀ d, t.pending = some ⟨dataCmd, d⟩ → (d.getLsbD 0 = true ↔ t.state = .mr)) :
    FlightInv t where
  unboundIdle hu := absurd hu hbound
  idleEvent _ h := by simp [hint] at h
  staleIdle h := by simp [hint] at h
  mode _ := hmode
  direction _ := hdir
  event _ h := by simp [hint] at h

/-! ### What the invariant of contract runs says of a bound engine -/

section
variable (h : ContractInv s) (hbound : s.role ≠ .none)
include h hbound

theorem ContractInv.mode_ne_off : s.busMode ≠ .off := mt h.offUnbound.1 hbound

/-- R231: out of flight the BUS agent is in no transfer. -/
theorem ContractInv.free_of_idle (hidle : s.busy = false) : s.busMode = .free :=
  of_not_not fun hfree => by simp [h.transferBusy (h.mode_ne_off hbound) hfree] at hidle

end

/-- R13: the operation bit of ADDR says the direction of a master transfer. -/
theorem EngineInv.direction (hi : EngineInv s) (h : s.state = .mt ∨ s.state = .mr) :
    s.addr.getLsbD 0 = true ↔ s.state = .mr := by
  rcases h with h | h
  · simpa [h, hi.writeAddress h] using hi.devWrite
  · simp [h, hi.readAddress h]

end

end Sys2Proof.Machine
end

section
/-! SUPPORT. The reactions in contract runs: a reaction to a condition that the contract delivers ends the transfer, and the
BUS agent is FREE, or it hands over the next byte of the transfer (R231, R246). -/

namespace Sys2Proof.Machine

/-! ### The mode after the control write of a reaction (R231) -/

/-- R231: the mode that DATA_CMD or NACK_CMD enters after an event. -/
def dataMode (last : Option Condition) : Option BusMode :=
  match last with
  | some .start | some .repStart => some .mAddr
  | some .mtSlaAck | some .mtDataAck => some .mTx
  | _ => byteMode last

theorem modeAfter_data (m : BusMode) (l : Option Condition) : modeAfter m l dataCmd = (dataMode l).getD m := by
  cases l with
  | none => rfl
  | some c => cases c <;> rfl

/-- R231: after a byte of a receiver or of a slave transmitter ACK_CMD and NACK_CMD enter one mode. -/
theorem dataMode_of_byteMode {l : Option Condition} {m : BusMode} (h : byteMode l = some m) : dataMode l = some m := by
  cases l with
  | none => exact h
  | some c =>
    cases c with
    | start | repStart | mtSlaAck | mtDataAck => cases h
    | _ => exact h

/-- R246: when the mode becomes FREE the transfer has no last event. -/
theorem lastEventAfter_of_free {m : BusMode} {l : Option Condition} {v : Byte} (h : modeAfter m l v = .free) :
    lastEventAfter m l v = none := by
  simp [lastEventAfter, h]

/-- R246: no control write makes a last event. -/
theorem lastEventAfter_none (m : BusMode) (v : Byte) : lastEventAfter m none v = none := ite_self _

/-! ### The end of a transfer -/

/-- After a reaction that ended the transfer. -/
structure EndsTransfer (t : State) : Prop where
  mode : t.busMode = .free
  last : t.busLast = none
  outcome : t.state = .idle ∨ t.state = .error ∧ t.count = 0xFFFF#16

/-- R171: STOP_CMD. -/
theorem stop_ends {e : EngineState} {ty : EventType} {s : State} (h : e = .idle ∨ e = .error ∧ s.count = 0xFFFF#16) :
    EndsTransfer (stop e ty s) where
  mode := by simp [stop]
  last := by simp [stop, lastEventAfter]
  outcome := by simpa [stop] using h

/-- R178, R182, R183: the error ending. -/
theorem failWithStop_ends (s : State) : EndsTransfer (failWithStop s) := stop_ends (.inr ⟨rfl, rfl⟩)

section
variable {s : State} (h : byteMode s.busLast = none)
include h

/-- R231: RELEASE_CMD, and ACK_CMD outside a byte, free the bus. -/
theorem modeAfter_release_of_ended : modeAfter s.busMode s.busLast releaseCmd = .free := by
  rw [modeAfter_release, h]; rfl

/-- R220, R221: the end of a slave transmission. -/
theorem stDone_ends : EndsTransfer (stDone s) :=
  ⟨modeAfter_release_of_ended h, lastEventAfter_of_free (modeAfter_release_of_ended h), .inl rfl⟩

/-- R215: the end of a slave reception. -/
theorem slaveWriteDone_ends : EndsTransfer (slaveWriteDone s) := by
  rw [slaveWriteDone_eq, push_eq]
  exact ⟨modeAfter_release_of_ended h, lastEventAfter_of_free (modeAfter_release_of_ended h), .inl rfl⟩

/-- R174: the end by a lost arbitration. -/
theorem arbLost_ends :
    EndsTransfer (push .error { crWrite releaseCmd s with state := .error, count := minusOne }) := by
  rw [push_eq]
  exact ⟨modeAfter_release_of_ended h, lastEventAfter_of_free (modeAfter_release_of_ended h), .inr ⟨rfl, rfl⟩⟩

end

/-! ### The next byte of a transfer -/

/-- R206, R216: in a reaction to `c` that goes on, an address match sets STATE, any other condition keeps it. -/
def MovesState (c : Condition) (e e' : EngineState) : Prop :=
  addressMatch c = false ∧ e' = e ∨ c = .srSlaAck ∧ e' = .sr ∨ c = .stSlaAck ∧ e' = .st

/-- From `s`, where `c` waits, to `t`, after a reaction that handed over the next byte: the mode goes with `c` if that is an
event of the current transfer, and ACK_CMD announces a byte that has room. -/
structure ContinuesTransfer (c : Condition) (s t : State) : Prop where
  stale : s.busLast = none → t.busLast = none ∧ (t.busMode = s.busMode ∨ t.busMode = .free)
  mode : s.busLast = some c → dataMode (some c) = some t.busMode
  outcome : MovesState c s.state t.state
  announced : ∀ d, t.pending = some ⟨ackCmd, d⟩ → 1 ≤ t.rem.toNat
  address : c = .start → t.pending = some ⟨dataCmd, s.addr⟩

section
variable {c : Condition} {s u : State} (hmode : u.busMode = s.busMode) (hlast : u.busLast = s.busLast)
  (houtcome : MovesState c s.state u.state)
include hmode hlast houtcome

/-- R84: DATA_CMD, the value of NACK_CMD. -/
theorem dataCmd_continues {m : BusMode} (hdata : dataMode (some c) = some m) (haddr : c = .start → u.dr = s.addr) :
    ContinuesTransfer c s (crWrite dataCmd u) where
  stale h := by
    rw [crWrite_busLast, crWrite_busMode, hmode, hlast, h, lastEventAfter_none]
    exact ⟨rfl, .inl rfl⟩
  mode h := by rw [crWrite_busMode, hlast, h, modeAfter_data, hdata]; rfl
  outcome := houtcome
  announced d h := by
    have hne : dataCmd ≠ ackCmd := by decide
    simp [hne] at h
  address h := by rw [crWrite_pending, pendingAfter_data, haddr h]

/-- R84: ACK_CMD, with room for the byte. -/
theorem ackCmd_continues {m : BusMode} (hbyte : byteMode (some c) = some m) (hroom : 1 ≤ u.rem.toNat) :
    ContinuesTransfer c s (crWrite ackCmd u) where
  stale h := by
    rw [crWrite_busLast, crWrite_busMode, hmode, hlast, h, lastEventAfter_none]
    exact ⟨rfl, .inr rfl⟩
  mode h := by rw [crWrite_busMode, hlast, h, modeAfter_ack, dataMode_of_byteMode hbyte, hbyte]; rfl
  outcome := houtcome
  announced _ _ := hroom
  address h := by rw [h] at hbyte; cases hbyte

/-- R179, R180: a master announces the byte after next. -/
theorem mrDecide_continues {m : BusMode} (hbyte : byteMode (some c) = some m) : ContinuesTransfer c s (mrDecide u) := by
  rw [mrDecide]
  obtain ⟨h, hroom⟩ | ⟨h, -⟩ := masterAck_cases u.rem <;> rw [h]
  · exact ackCmd_continues hmode hlast houtcome hbyte (by omega)
  · refine dataCmd_continues hmode hlast houtcome (dataMode_of_byteMode hbyte) fun h => ?_
    rw [h] at hbyte; cases hbyte

/-- R206, R210, R219: a slave announces the next byte. -/
theorem slaveAck_continues {m : BusMode} (hbyte : byteMode (some c) = some m) :
    ContinuesTransfer c s (crWrite (slaveAck u.rem) u) := by
  obtain ⟨h, hroom⟩ | ⟨h, -⟩ := slaveAck_cases u.rem <;> rw [h]
  · exact ackCmd_continues hmode hlast houtcome hbyte hroom
  · refine dataCmd_continues hmode hlast houtcome (dataMode_of_byteMode hbyte) fun h => ?_
    rw [h] at hbyte; cases hbyte

end

/-- R175: a transmitter sends the next byte, or its write ends. -/
theorem mtNext_ends_or_continues {c : Condition} {s : State} (hc : c = .mtSlaAck ∨ c = .mtDataAck) :
    EndsTransfer (mtNext s) ∨ ContinuesTransfer c s (mtNext s) := by
  have hmode : dataMode (some c) = some .mTx := by rcases hc with rfl | rfl <;> rfl
  have hother : addressMatch c = false ∧ c ≠ .start := by rcases hc with rfl | rfl <;> exact ⟨rfl, nofun⟩
  by_cases h : (advance s).rem = 0#16
  · rw [mtNext_of_end h]
    exact .inl (stop_ends (.inl rfl))
  · rw [mtNext_of_byte h]
    exact .inr (dataCmd_continues (by simp) (by simp) (.inl ⟨hother.1, by simp⟩) hmode fun h => absurd h hother.2)

/-! ### Every reaction of a contract run -/

/-- R247 (a): what the reaction to a condition does that the contract can deliver, when that is the last event of the current
transfer or one that waits from before. -/
theorem reaction_ends_or_continues {i : Instr} {c : Condition} {s t : State} (hc : i.condition = some c)
    (hd : deliverable c = true) (hlast : s.busLast = none ∨ s.busLast = some c) (h : exec i s = .next t) :
    EndsTransfer t ∨ ContinuesTransfer c s t := by
  have hended (hbyte : byteMode (some c) = none) : byteMode s.busLast = none := by
    rcases hlast with h | h <;> rw [h]
    · rfl
    · exact hbyte
  cases i with
  | start =>
    cases hc; cases h
    exact .inr (dataCmd_continues (u := { s with dr := s.addr }) rfl rfl (.inl ⟨rfl, rfl⟩) rfl fun _ => rfl)
  | mtSlaAck => cases hc; cases h; exact mtNext_ends_or_continues (.inl rfl)
  | mtDataAck => cases hc; cases h; exact mtNext_ends_or_continues (.inr rfl)
  | mrSlaAck => cases hc; cases h; exact .inr (mrDecide_continues rfl rfl (.inl ⟨rfl, rfl⟩) rfl)
  | mrDataAck =>
    cases hc; cases h
    exact .inr (mrDecide_continues (storeByte_busMode s) (storeByte_busLast s) (.inl ⟨rfl, storeByte_state s⟩) rfl)
  | srSlaAck =>
    cases hc; cases h
    exact .inr (slaveAck_continues (by simp) (by simp) (.inr (.inl ⟨rfl, slaveLoad_state s.slvWr .sr s⟩)) rfl)
  | srDataAck =>
    cases hc; cases h
    exact .inr (slaveAck_continues (storeByte_busMode s) (storeByte_busLast s) (.inl ⟨rfl, storeByte_state s⟩) rfl)
  | stSlaAck =>
    cases hc; cases h
    exact .inr (slaveAck_continues (by simp) (by simp) (.inr (.inr ⟨rfl, by simp⟩)) rfl)
  | stDataAck =>
    cases hc; cases h
    exact .inr (slaveAck_continues (stLoad_busMode s) (stLoad_busLast s) (.inl ⟨rfl, stLoad_state s⟩) rfl)
  | mtDataNack | mrDataNack => cases hc; cases h; exact .inl (stop_ends (.inl rfl))
  | busError | mtSlaNack | mrSlaNack => cases hc; cases h; exact .inl (failWithStop_ends s)
  | arbLost => cases hc; cases h; exact .inl (arbLost_ends (hended rfl))
  | srDataNack | srStop => cases hc; cases h; exact .inl (slaveWriteDone_ends (hended rfl))
  | stDataNack | stLastData => cases hc; cases h; exact .inl (stDone_ends (hended rfl))
  | repStart | srArbLostSlaAck | srGcallAck | srArbLostGcallAck | srGcallDataAck | srGcallDataNack | stArbLostSlaAck
  | unmappedD0 | unmappedD8 | unmappedE0 | unmappedE8 | unmappedF0 | noInfo => cases hc; cases hd
  | _ => cases hc

end Sys2Proof.Machine
end

section
/-! SUPPORT. The invariants of contract runs are kept by every reaction (R240, R246, R251). -/

namespace Sys2Proof.Machine

/-! ### The mode goes with the state (R231) -/

/-- R231: which mode the transfer is in after DATA_CMD or a byte. -/
theorem dataMode_transfer {c : Condition} {m : BusMode} (h : dataMode (some c) = some m) :
    m ≠ .off ∧ m ≠ .free ∧ m ≠ .mStart := by
  cases c <;> cases h <;> decide

/-- R231: the address byte of a master follows START. -/
theorem start_of_dataMode {c : Condition} (hd : deliverable c = true) (h : dataMode (some c) = some .mAddr) :
    c = .start := by
  cases c with
  | start => rfl
  | repStart => cases hd
  | _ => cases h

/-- R231: the mode belongs to the transfer of the event. -/
theorem modeAgrees_of_dataMode {c : Condition} {m : BusMode} {e : EngineState} (hd : deliverable c = true)
    (ha : addressMatch c = false) (h : dataMode (some c) = some m) (he : eventAgrees c e) : modeAgrees m e := by
  cases c with
  | start | mtSlaAck | mtDataAck | mrSlaAck | mrDataAck | srDataAck | stDataAck => cases h; exact he
  | srSlaAck | stSlaAck => cases ha
  | repStart | srArbLostSlaAck | srGcallAck | srArbLostGcallAck | srGcallDataAck | stArbLostSlaAck => cases hd
  | _ => cases h

/-! ### The room of a master read (R179 to R181) -/

/-- R179, R180: after a decision on a byte that has room. -/
theorem mrDecide_readWaiting {s : State} (hroom : 1 ≤ s.rem.toNat) (hlast : byteMode s.busLast = some .mRx) :
    readWaiting (mrDecide s) := by
  rw [mrDecide]
  obtain ⟨h, htwo⟩ | ⟨h, hone⟩ := masterAck_cases s.rem <;> rw [h]
  · refine .inr (.inr (.inl ⟨?_, s.dr, rfl, htwo⟩))
    rw [crWrite_busMode, modeAfter_ack, hlast]; rfl
  · refine .inr (.inr (.inr ⟨?_, s.dr, rfl, by rw [rem_crWrite]; omega⟩))
    change modeAfter s.busMode s.busLast dataCmd = .mRx
    rw [modeAfter_data, dataMode_of_byteMode hlast]; rfl

/-- R247 (b): a reaction of a master read that has room for the announced byte, and goes on, has room for the next. -/
theorem readWaiting_of_reaction {i : Instr} {s t : State} (hc : i.condition = some (decodeCondition s.sr))
    (h : exec i s = .next t) (hans : readAnswering s) (hmr : t.state = .mr) : readWaiting t := by
  obtain ⟨hroom, hlast, hevent⟩ := hans
  generalize decodeCondition s.sr = c at hc hlast hevent
  cases i with
  | start =>
    cases hc; cases h
    exact .inr (.inl ⟨crWrite_busMode_of_last (s := { s with dr := s.addr }) hlast dataCmd, rfl, hroom⟩)
  | mrSlaAck => cases hc; cases h; exact mrDecide_readWaiting hroom (by rw [hlast]; rfl)
  | mrDataAck =>
    cases hc; cases h
    have htwo : 2 ≤ s.rem.toNat := hevent
    refine mrDecide_readWaiting ?_ (by rw [storeByte_busLast, hlast]; rfl)
    rw [toNat_rem_storeByte (rem_ne_zero_of_pos (by omega))]
    omega
  | busError | mrSlaNack => cases h; rw [failWithStop, stop_state] at hmr; cases hmr
  | mrDataNack => cases h; rw [stop_state] at hmr; cases hmr
  | arbLost => cases h; rw [push_state] at hmr; cases hmr
  | _ => cases hc <;> cases hevent

/-! ### The invariants after a reaction (R170) -/

/-- A reaction that ended the transfer leaves nothing for the invariants to ask. -/
theorem EndsTransfer.keepsContract {s t : State} (h : EndsTransfer t) (hint : t.int = false) (hbound : t.role ≠ .none) :
    KeepsContract s t := by
  obtain ⟨hmode, hlast, houtcome⟩ := h
  have hstate : ∀ e, e ≠ .idle → e ≠ .error → t.state ≠ e := by
    rintro e hidle herror rfl
    exact houtcome.elim hidle fun h => herror h.1
  exact {
    contract := .of_answered hint hbound (by simp [hmode]) (.inl hmode) (fun _ => hlast) fun herror => by
      rcases houtcome with h | ⟨-, hcount⟩
      · rw [h] at herror; cases herror
      · exact hcount
    room := fun _ => .of_answered hint (fun h => absurd h (hstate _ nofun nofun)) fun h => absurd h (hstate _ nofun nofun)
    flight := fun _ _ => .of_answered hint hbound (by rw [hmode]; trivial) fun h => by rw [hmode] at h; cases h }

section
variable {s t : State} (h : ContinuesTransfer (decodeCondition s.sr) s t)
include h

/-- A reaction that goes on with a transfer leaves it in flight. -/
theorem ContinuesTransfer.busy (hbusy : addressMatch (decodeCondition s.sr) = true ∨ s.busy = true) : t.busy = true := by
  rcases h.outcome with ⟨hmatch, hstate⟩ | ⟨-, hstate⟩ | ⟨-, hstate⟩
  · rw [State.busy, hstate]
    exact hbusy.resolve_left (by simp [hmatch])
  all_goals rw [State.busy, hstate]; rfl

section
variable (hc : ContractInv s) (hbound : s.role ≠ .none) (hint : s.int = true) (hint' : t.int = false)
  (hbound' : t.role ≠ .none)
include hc hbound hint hint' hbound'

theorem ContinuesTransfer.contractInv : ContractInv t := by
  have herror : t.state = .error → t.count = 0xFFFF#16 := fun he => by
    rcases h.outcome with ⟨hmatch, hstate⟩ | ⟨-, hstate⟩ | ⟨-, hstate⟩
    · cases hmatch.symm.trans (hc.errorEvent hbound (hstate.symm.trans he) hint)
    all_goals rw [hstate] at he; cases he
  rcases hc.waitingLast hint with hlast | hlast
  · obtain ⟨hlast', hmode⟩ := h.stale hlast
    refine .of_answered hint' hbound' ?_ ?_ (fun _ => hlast') herror
    · rcases hmode with hm | hm <;> rw [hm]
      · exact hc.mode_ne_off hbound
      · nofun
    · rcases hmode with hm | hm
      · refine (Decidable.em (s.busMode = .free)).imp hm.trans fun hfree => ?_
        exact h.busy (.inr (hc.transferBusy (hc.mode_ne_off hbound) hfree))
      · exact .inl hm
  · obtain ⟨hoff, hfree, hstart⟩ := dataMode_transfer (h.mode hlast)
    refine .of_answered hint' hbound' hoff (.inr (h.busy ?_)) (fun hm => absurd hm (not_or.2 ⟨hfree, hstart⟩)) herror
    refine (Decidable.em (s.busMode = .free)).imp (fun hfree => ?_) (hc.transferBusy (hc.mode_ne_off hbound))
    rcases hc.freeEvent hfree with hnone | ⟨-, c, hlast', hmatch⟩
    · rw [hlast] at hnone; cases hnone
    · cases hlast.symm.trans hlast'
      exact hmatch

theorem ContinuesTransfer.flightInv (hf : FlightInv s) (hi : EngineInv s) : FlightInv t := by
  have hd : deliverable (decodeCondition s.sr) = true := hc.waitingEvent hint
  rcases hc.waitingLast hint with hlast | hlast
  · have hfree : s.busMode = .free := hc.free_of_idle hbound (hf.staleIdle hint hlast)
    have hfree' : t.busMode = .free := (h.stale hlast).2.elim (·.trans hfree) id
    exact .of_answered hint' hbound' (by rw [hfree']; trivial) fun hm => by rw [hfree'] at hm; cases hm
  · have hmode := h.mode hlast
    have he : eventAgrees (decodeCondition s.sr) s.state := hf.event hbound hint
    refine .of_answered hint' hbound' ?_ fun hm d hp => ?_
    · rcases h.outcome with ⟨hmatch, hstate⟩ | ⟨hevent, hstate⟩ | ⟨hevent, hstate⟩
      · rw [hstate]; exact modeAgrees_of_dataMode hd hmatch hmode he
      all_goals rw [hevent] at hmode; rw [← Option.some.inj hmode]; exact hstate
    · have hstart := start_of_dataMode hd (hm ▸ hmode)
      cases (h.address hstart).symm.trans hp
      have hstate : t.state = s.state := by
        rcases h.outcome with ⟨-, hstate⟩ | ⟨hevent, -⟩ | ⟨hevent, -⟩
        · exact hstate
        all_goals cases hstart.symm.trans hevent
      rw [hstate]
      rw [hstart] at he
      exact hi.direction he

end
end

/-- R257: an enabled event step sees a waiting event. -/
theorem int_of_enabled {s : State} (h : s.eventEnabled = true) : s.int = true := by
  simp only [State.eventEnabled, Bool.and_eq_true] at h
  exact h.1.1

/-- Every reaction of a contract run keeps the invariants. -/
theorem KeepsContract.of_reaction {s t : State} (hi : EngineInv s) (hc : ContractInv s) (he : s.eventEnabled = true)
    (h : exec (decodeStatus s.sr) s = .next t) : KeepsContract s t := by
  have hbound : s.role ≠ .none := hi.bound_of_enabled he
  have hint : s.int = true := int_of_enabled he
  have hi' : (decodeStatus s.sr).condition = some (decodeCondition s.sr) := condition_decodeStatus s.sr
  have hd : deliverable (decodeCondition s.sr) = true := hc.waitingEvent hint
  obtain ⟨-, hframe⟩ := reaction_of_exec (by rw [hi']; rfl) h
  have hinfo : decodeStatus s.sr ≠ .noInfo := fun hno => by
    rw [hno] at hi'
    rw [← Option.some.inj hi'] at hd
    cases hd
  obtain ⟨v, hv⟩ := exec_handsOver (by rw [hi']; rfl) hinfo h
  have hbound' : t.role ≠ .none := hframe.role ▸ hbound
  rcases reaction_ends_or_continues hi' hd (hc.waitingLast hint) h with hend | hgo
  · exact hend.keepsContract hv.int_eq_false hbound'
  · exact {
      contract := hgo.contractInv hc hbound hint hv.int_eq_false hbound'
      room := fun hr => .of_answered hv.int_eq_false (fun hmr => by
        refine readWaiting_of_reaction hi' h (hr.readAnswers hbound ?_ hint) hmr
        rcases hgo.outcome with ⟨-, hstate⟩ | ⟨-, hstate⟩ | ⟨-, hstate⟩ <;> rw [hmr] at hstate
        · exact hstate.symm
        all_goals cases hstate) fun _ => hgo.announced
      flight := fun hf _ => hgo.flightInv hc hbound hint hv.int_eq_false hbound' hf hi }

end Sys2Proof.Machine
end

section
/-! SUPPORT. The invariants of contract runs are kept by every command: those that bind, release or start a request, and the
others, which the invariants do not see (R141 to R149, R201 to R204). -/

namespace Sys2Proof.Machine

/-! ### The commands (R141 to R143) -/

/-- R240: an address match is no event of a transfer that has begun. -/
theorem eventAgrees_of_addressMatch {c : Condition} (h : addressMatch c = true) (e : EngineState) : eventAgrees c e := by
  obtain rfl | rfl : c = .srSlaAck ∨ c = .stSlaAck := by simpa [addressMatch] using h
  all_goals trivial

/-- R101, R105: a read request that is not refused has room. -/
theorem rem_buildRaw {buf : Ptr} (hbuf : buf ≠ 0#16) (size : Half) (s : State) :
    (segLoad 0 (buildRaw buf size s)).rem = size :=
  segLoad_segment_rem 0 _ (by simp [atSentinel, buildRaw, Descriptor.slot, hbuf])

/-- R143: an accepted request. -/
theorem KeepsContract.requestAccept (s : State) {built : State} (hrole : built.role ≠ .none)
    (hfree : built.busMode = .free) {op : Bool} (hroom : op = true → 1 ≤ (segLoad 0 built).rem.toNat) :
    KeepsContract s (requestAccept op built) := by
  have hint : (Machine.requestAccept op built).int = false := by simp [State.int]
  have hlast : (Machine.requestAccept op built).busLast = none := by
    simp [Machine.requestAccept, lastEventAfter, hfree]
  have hmaster : (Machine.requestAccept op built).state = .mt ∨ (Machine.requestAccept op built).state = .mr := by
    cases op <;> simp
  have hbound : (Machine.requestAccept op built).role ≠ .none := by simpa using hrole
  exact {
    contract := by
      refine .of_answered hint hbound (by simp) (.inr ?_) (fun _ => hlast) fun h => absurd hmaster (by rw [h]; decide)
      rcases hmaster with h | h <;> rw [State.busy, h] <;> rfl
    room := fun _ => by
      refine .of_answered hint (fun h => .inl ⟨by simp, ?_⟩) fun h => absurd hmaster (by rw [h]; decide)
      rw [requestAccept_rem]
      exact hroom (by simpa using h)
    flight := fun _ _ => .of_answered hint hbound (by rw [requestAccept_busMode]; exact hmaster) fun h => by simp at h }

section
variable {s : State} (hc : ContractInv s)
include hc

/-- R141, R203: a binding, with an event waiting from before or not. -/
theorem KeepsContract.bind (hunbound : s.role = .none) (role : Role) (hrole : role ≠ .none) (dev ar : Byte)
    (target : Half) : KeepsContract s (bind role dev ar target s) := by
  have hmode : (Machine.bind role dev ar target s).busMode = .free := crWrite_idle_busMode (hc.offUnbound.2 hunbound)
  have hlast : (Machine.bind role dev ar target s).busLast = none := lastEventAfter_of_free hmode
  have hint : (Machine.bind role dev ar target s).int = s.int := (crAfterWrite_idle_bits s.cr).1
  have hevent : decodeCondition (Machine.bind role dev ar target s).sr = decodeCondition s.sr :=
    decodeCondition_srWithPrescale _ _
  exact {
    contract := {
      offUnbound := iff_of_false (by simp [hmode]) hrole
      transferBusy := fun _ hfree => absurd hmode hfree
      freeEvent := fun _ => .inl hlast
      startFresh := fun _ _ => hlast
      waitingEvent := by rw [hint, hevent]; exact hc.waitingEvent
      waitingLast := fun _ => .inl hlast
      errorCount := nofun
      errorEvent := nofun }
    room := fun _ => ⟨nofun, nofun, nofun, nofun⟩
    flight := fun hf _ => {
      unboundIdle := fun h => absurd h hrole
      idleEvent := fun _ => by rw [hint, hevent]; exact hf.idleEvent (hf.unboundIdle hunbound)
      staleIdle := fun _ _ => rfl
      mode := fun _ => by rw [hmode]; trivial
      direction := fun _ h => by rw [hmode] at h; cases h
      event := fun _ h => by
        rw [hint] at h
        rw [hevent]
        exact eventAgrees_of_addressMatch (hf.idleEvent (hf.unboundIdle hunbound) h) _ } }

/-- R142: END. What it leaves in flight it abandons (R293). -/
theorem KeepsContract.release (hbound : s.role ≠ .none) :
    KeepsContract s { crWrite offCmd s with role := .none, target := 0#16, callbackDue := false } := by
  have hint : State.int { crWrite offCmd s with role := .none, target := 0#16, callbackDue := false } = s.int :=
    (crAfterWrite_off_bits s.cr).1
  exact {
    contract := {
      offUnbound := iff_of_true rfl rfl
      transferBusy := fun hoff => absurd rfl hoff
      freeEvent := nofun
      startFresh := nofun
      waitingEvent := by rw [hint]; exact hc.waitingEvent
      waitingLast := fun _ => .inl rfl
      errorCount := hc.errorCount
      errorEvent := fun h => absurd rfl h }
    room := fun _ => ⟨fun h => absurd rfl h, fun h => absurd rfl h, fun h => absurd rfl h, fun h => absurd rfl h⟩
    flight := fun hf hk => {
      unboundIdle := fun _ => hk hbound rfl
      idleEvent := by rw [hint]; exact hf.idleEvent
      staleIdle := fun _ _ => hk hbound rfl
      mode := fun h => absurd rfl h
      direction := fun h => absurd rfl h
      event := fun h => absurd rfl h } }

/-- R143: a request, refused or accepted, whose builder left the mode and the role. -/
theorem KeepsContract.request {built : State} (hrole : built.role = s.role) (hmode : built.busMode = s.busMode)
    {op : Bool} (hroom : op = true → 1 ≤ (segLoad 0 built).rem.toNat) (total : Nat) :
    KeepsContract s (request op total built s) := by
  unfold Machine.request
  split
  next => exact .of_view hc rfl
  next hok =>
    obtain ⟨hm, hidle, -⟩ : s.role = .master ∧ s.state = .idle ∧ total ≤ 32767 := by
      simpa [requestRefused_iff] using hok
    have hbound : s.role ≠ .none := by simp [hm]
    exact .requestAccept s (hrole ▸ hbound) (hmode.trans (hc.free_of_idle hbound (by rw [State.busy, hidle]; rfl))) hroom

/-- Every command of a contract run keeps the invariants. -/
theorem KeepsContract.of_command {i : Instr} {t : State} (hi : i.condition = none) (h : exec i s = .next t) :
    KeepsContract s t := by
  have unseen : ∀ {t : State}, t.contractView = s.contractView → KeepsContract s t := fun hv => .of_view hc hv
  cases i with
  | beginCmd a8 target =>
    simp only [exec, execBegin] at h
    repeat' split at h
    all_goals cases h
    · exact unseen rfl
    · exact unseen rfl
    next hu => exact .congr (.bind hc (of_not_not hu) .master nofun _ _ target) rfl rfl
  | sbegin a8 target =>
    simp only [exec, execSbegin] at h
    repeat' split at h
    all_goals cases h
    · exact unseen rfl
    · exact unseen rfl
    next hu => exact .congr (.bind hc (of_not_not hu) .slave nofun _ _ target) rfl rfl
  | endCmd =>
    simp only [exec, execEnd] at h
    repeat' split at h
    all_goals cases h
    · exact unseen rfl
    · exact unseen rfl
    next hbound _ => exact .congr (.release hc hbound) rfl rfl
  | wreq buf size | wreq1 header buf size | wreq2 header buf size => 
    cases h
    refine .request hc ?_ ?_ ?_ _
    exacts [rfl, rfl, nofun]
  | rreq buf size =>
    simp only [exec, execRreq] at h
    split at h <;> cases h
    · exact unseen rfl
    next hne =>
      obtain ⟨hbuf, hsize⟩ := not_or.1 hne
      refine .request hc (built := buildRaw buf size s) rfl rfl (fun _ => ?_) _
      rw [rem_buildRaw hbuf]
      exact Nat.pos_of_ne_zero fun h0 => hsize (BitVec.eq_of_toNat_eq h0)
  | awaitCmd m =>
    simp only [exec, execAwait] at h
    split at h <;> cases h <;> exact unseen rfl
  | setrb buf size | setwb buf size =>
    simp only [exec, execSetrb, execSetwb] at h
    repeat' split at h
    all_goals cases h; exact unseen rfl
  | poll => cases h; exact unseen rfl
  | rearm => obtain ⟨r, a, rfl⟩ := execRearm_cases h; exact unseen rfl
  | _ => cases hi

end

end Sys2Proof.Machine
end

section
/-! SUPPORT. The invariants of contract runs are kept by every turn that respects the contract (R246), so they hold in every
contract run (R247). -/

namespace Sys2Proof.Machine

/-! ### The BUS agent's turns (R230, R236) -/

section
variable {s : State}

/-- R240, R241: only a slave is armed. -/
theorem EngineInv.slave_of_armed (hi : EngineInv s) (h : s.armed = true) : s.role = .slave := by
  obtain ⟨hen, -, har, -, -⟩ := (armed_iff s).1 h
  cases hrole : s.role with
  | none => simp [(hi.unboundMasked hrole).1] at hen
  | master => exact absurd (hi.masterDisarmed hrole) har
  | slave => rfl

/-- R246, R247 (b): an allowed event of a master read that has room for the announced byte is one the read can answer. -/
theorem LegalEvent.readAnswering {t : State} (h : LegalEvent s (decodeCondition t.sr)) (hrem : t.rem = s.rem)
    (hlast : t.busLast = some (decodeCondition t.sr)) (hfresh : s.busMode = .mStart → s.busLast = none)
    (haddr : s.addr.getLsbD 0 = true) (hw : readWaiting s) : readAnswering t := by
  have hne : ackCmd ≠ nackCmd := by decide
  unfold Machine.readAnswering
  rw [hrem]
  generalize decodeCondition t.sr = c at h hlast
  cases h with
  | started d hm _ _ hc =>
    have hroom : 1 ≤ s.rem.toNat := by simpa [readWaiting, hm] using hw
    subst hc
    exact ⟨hroom, hlast, trivial⟩
  | restarted d hm _ hl _ => exact absurd (hfresh hm) hl
  | writeAddressed d hm hp hbit _ =>
    obtain ⟨hd, -⟩ : d = s.addr ∧ 1 ≤ s.rem.toNat := by simpa [readWaiting, hm, hp] using hw
    rw [← hd, hbit] at haddr
    cases haddr
  | readAddressed d hm hp _ hc =>
    obtain ⟨-, hroom⟩ : d = s.addr ∧ 1 ≤ s.rem.toNat := by simpa [readWaiting, hm, hp] using hw
    rcases hc with rfl | rfl | rfl | rfl <;> exact ⟨hroom, hlast, trivial⟩
  | readAcked d hm hp hc =>
    have hroom : 2 ≤ s.rem.toNat := by simpa [readWaiting, hm, hp, hne] using hw
    rcases hc with rfl | rfl
    exacts [⟨by omega, hlast, hroom⟩, ⟨by omega, hlast, trivial⟩]
  | readNacked d hm hp hc =>
    have hroom : s.rem.toNat = 1 := by simpa [readWaiting, hm, hp, hne.symm] using hw
    rcases hc with rfl | rfl | rfl <;> exact ⟨by omega, hlast, trivial⟩
  | addressed hm | byteSent _ hm | receiveAcked _ hm | receiveNacked _ hm | sendAcked _ hm | sendNacked _ hm =>
    simp [readWaiting, hm] at hw

/-- R230: what the invariants see of a delivery. -/
theorem deliver_view (hen : s.en = true) (hint : s.int = false) (code data : Byte) :
    (deliver code data s).contractView = { s.contractView with
      int := true, event := decodeCondition code, last := some (decodeCondition code), pending := none } := by
  have hset : (crWithInt s.cr).getLsbD 7 = true := (crWithInt_bits s.cr).1
  rw [deliver_of_enabled hen hint, ← hset, ← decodeCondition_srWithStatus s.sr code]
  rfl

/-- R230, R246: a delivery that the contract allows. -/
theorem KeepsContract.deliver (hi : EngineInv s) (hc : ContractInv s) (code data : Byte)
    (hlegal : s.en = true → s.int = false → legalDelivery s code = true) : KeepsContract s (deliver code data s) := by
  by_cases hready : s.en = true ∧ s.int = false
  swap
  · rw [deliver_of_blocked (by simpa [or_iff_not_imp_left] using hready)]
    exact .of_view hc rfl
  obtain ⟨hen, hint⟩ := hready
  have h : LegalEvent s (decodeCondition code) := (legalDelivery_iff s code).1 (hlegal hen hint)
  have hfresh : s.busMode = .mStart → s.busLast = none := fun hm => hc.startFresh hm hint
  have hbound : s.role ≠ .none := fun hu => by simp [(hi.unboundMasked hu).1] at hen
  have hmatch : s.busy = false → addressMatch (decodeCondition code) = true := fun hidle =>
    (h.of_free (hc.free_of_idle hbound hidle)).2
  have hv := deliver_view hen hint code data
  generalize Machine.deliver code data s = t at hv
  simp only [State.contractView, ContractView.mk.injEq] at hv
  obtain ⟨hstate, hrole, hcount, haddr, hrem, hint', hevent, hmode, hlast, hpending⟩ := hv
  rw [← hevent] at h hmatch hlast
  have hbusy : t.busy = s.busy := congrArg EngineState.inFlight hstate
  have hnone : ∀ {p}, t.pending ≠ some p := fun hp => by rw [hpending] at hp; cases hp
  exact {
    contract := {
      offUnbound := by rw [hmode, hrole]; exact hc.offUnbound
      transferBusy := by rw [hmode, hbusy]; exact hc.transferBusy
      freeEvent := fun hfree => by
        obtain ⟨harmed, haddressed⟩ := h.of_free (hmode ▸ hfree)
        exact .inr ⟨hrole ▸ hi.slave_of_armed harmed, _, hlast, haddressed⟩
      startFresh := fun _ hclear => by rw [hint'] at hclear; cases hclear
      waitingEvent := fun _ => h.deliverable hfresh
      waitingLast := fun _ => .inr hlast
      errorCount := by rw [hstate, hcount]; exact hc.errorCount
      errorEvent := fun _ herror _ => hmatch (by rw [State.busy, ← hstate, herror]; rfl) }
    room := fun hr => {
      readWaits := fun _ _ hclear => by rw [hint'] at hclear; cases hclear
      readAnswers := fun hb hmr _ => by
        rw [hstate] at hmr
        exact h.readAnswering hrem hlast hfresh ((hi.direction (.inr hmr)).2 hmr) (hr.readWaits hbound hmr hint)
      transmitWaits := fun _ _ hclear => by rw [hint'] at hclear; cases hclear
      transmitAnswers := fun _ hst _ hack => by
        rw [hack] at h
        obtain ⟨hm, d, hp⟩ := h.of_stDataAck
        rw [hrem]
        exact hr.transmitWaits hbound (hstate ▸ hst) hint hm d hp }
    flight := fun hf _ => {
      unboundIdle := fun hu => absurd (hrole ▸ hu) hbound
      idleEvent := fun hidle _ => hmatch (hbusy ▸ hidle)
      staleIdle := fun _ hstale => by rw [hlast] at hstale; cases hstale
      mode := fun _ => by rw [hmode, hstate]; exact hf.mode hbound
      direction := fun _ _ d hp => absurd hp hnone
      event := fun _ _ => by rw [hstate]; exact h.eventAgrees (hf.mode hbound) (hf.direction hbound) } }

/-- R236: a command that is finished was not one of a master read. -/
theorem readWaiting_of_finished {p : BusCommand} (hp : s.pending = some p) (hno : noAnswer s.busMode p = true)
    (hw : readWaiting s) : readWaiting { s with pending := none } := by
  obtain hstart | ⟨-, hp', -⟩ | ⟨hm, d, hp', -⟩ | ⟨-, d, hp', -⟩ := hw
  · exact .inl hstart
  · cases hp.symm.trans hp'
    cases hno
  · cases hp.symm.trans hp'
    rw [hm] at hno
    cases hno
  · cases hp.symm.trans hp'
    cases hno

/-- R236: what the invariants see of a finishing turn. -/
theorem finish_view (s : State) : finish s = s ∨
    (∃ p, s.pending = some p ∧ noAnswer s.busMode p = true) ∧
      (finish s).contractView = State.contractView { s with pending := none } := by
  unfold finish
  split
  · exact .inl rfl
  next p hp =>
    split
    next hready =>
      have hint : (if p.cmd = stopCmd then crWithoutSto s.cr else s.cr).getLsbD 7 = s.cr.getLsbD 7 := by
        split
        · exact (crWithoutSto_bits s.cr).1
        · rfl
      refine .inr ⟨⟨p, hp, (Bool.and_eq_true_iff.1 hready).1⟩, ?_⟩
      simp only [State.contractView, State.int, hint]
      rfl
    · exact .inl rfl

/-- R236: finishing a command clears PENDING. -/
theorem KeepsContract.finish (hc : ContractInv s) : KeepsContract s (finish s) := by
  obtain h | ⟨⟨p, hp, hno⟩, hv⟩ := finish_view s
  · rw [h]
    exact .of_view hc rfl
  · refine .congr ?_ rfl hv
    exact {
      contract := { hc with }
      room := fun hr => {
        readWaits := fun hb hmr hint => readWaiting_of_finished hp hno (hr.readWaits hb hmr hint)
        readAnswers := hr.readAnswers
        transmitWaits := fun _ _ _ _ => nofun
        transmitAnswers := hr.transmitAnswers }
      flight := fun hf _ => { hf with direction := fun _ _ _ => nofun } }

end

/-! ### Every turn -/

section
variable {s t : State}

/-- R140: the command step. -/
theorem KeepsContract.commandStep (hc : ContractInv s) (h : commandStep s = .next t) : KeepsContract s t := by
  unfold Machine.commandStep runCommand at h
  split at h
  · split at h
    next i hd => exact .of_command hc (condition_of_decodeCommand hd) h
    next => cases h; exact .of_view hc rfl
  all_goals cases h; exact .of_view hc rfl

/-- R222: a command of the call-back: the ports are not seen. -/
theorem KeepsContract.callRun (hc : ContractInv s) {w : CmdWord} (h : callRun w s = .next t) : KeepsContract s t := by
  obtain ⟨u, hu, rfl⟩ := callRun_next w s t h
  exact .congr (.commandStep (s := { swapPorts s with port := .presented w }) (hc.of_view rfl) hu) rfl rfl

/-- R170: the event step. -/
theorem KeepsContract.eventStep (hi : EngineInv s) (hc : ContractInv s) (h : eventStep s = .next t) :
    KeepsContract s t := by
  cases he : s.eventEnabled with
  | true =>
    rw [eventStep_of_enabled he] at h
    exact .of_reaction hi hc he h
  | false =>
    rw [eventStep_of_masked he] at h
    cases h; exact .of_view hc rfl

/-- Every turn of every agent; a delivery must be one that the contract allows (R246). -/
theorem KeepsContract.takeTurn (hi : EngineInv s) (hc : ContractInv s) {turn : Turn}
    (hlegal : ∀ code data, turn = .deliver code data → s.en = true → s.int = false → legalDelivery s code = true)
    (h : takeTurn turn s = .next t) : KeepsContract s t := by
  cases turn with
  | reset =>
    cases h
    exact ⟨contractInv_reset.of_view rfl, fun _ => roomInv_reset.of_view rfl, fun _ _ => flightInv_reset.of_view rfl⟩
  | command => exact .commandStep hc h
  | event => exact .eventStep hi hc h
  | deliver code data => cases h; exact .deliver hi hc code data (hlegal code data rfl)
  | finish => cases h; exact .finish hc
  | hostPresent w => cases h; refine .of_view hc ?_; unfold hostPresent; split <;> rfl
  | hostStore a b => cases h; refine .of_view hc ?_; unfold hostStore; split <;> rfl
  | dispatch => cases h; refine .of_view hc ?_; unfold dispatch; split <;> rfl
  | callStore a b => cases h; refine .of_view hc ?_; unfold callStore; split <;> rfl
  | callCommand w =>
    simp only [Machine.takeTurn, callCommand] at h
    split at h
    · exact .callRun hc h
    · cases h; exact .of_view hc rfl
  | callReturn =>
    simp only [Machine.takeTurn, callReturn] at h
    split at h
    · exact .congr (.callRun (s := { s with onRequest := none }) (hc.of_view rfl) h) rfl rfl
    · cases h; exact .of_view hc rfl

/-- Every step that respects the contract (R246). -/
theorem KeepsContract.step (hi : EngineInv s) (hc : ContractInv s) (hlegal : ContractHolds s)
    (h : step s = .next t) : KeepsContract s t := by
  unfold Machine.step at h
  split at h
  next => cases h; exact .of_view hc rfl
  next turn rest hs =>
    have hturn : KeepsContract { s with script := rest } t := by
      refine .takeTurn { hi with } (hc.of_view rfl) (fun code data hd hen hint => ?_) h
      exact hlegal code data rest (hd ▸ hs) hen hint
    exact .congr hturn rfl rfl

end

/-- Settles O56: one structure holds what a step keeps, and every turn that respects the contract has it. -/
theorem contractInvariantsAreKeptByEveryContractStep : Obligations.ContractInvariantsAreKeptByEveryContractStep := by
  unfold Obligations.ContractInvariantsAreKeptByEveryContractStep
  intro s t hi hc hlegal h
  obtain ⟨hcontract, hroom, hflight⟩ := KeepsContract.step hi hc hlegal h
  exact ⟨hcontract, hroom, hflight⟩

/-! ### The runs (R247) -/

/-- What holds in every contract run. -/
theorem ContractReachable.invariants {s : State} (h : ContractReachable s) :
    EngineInv s ∧ ContractInv s ∧ RoomInv s := by
  induction h with
  | reset mem params script hwf =>
    exact ⟨{ engineInv_reset with memory := hwf }, contractInv_reset.of_view rfl, roomInv_reset.of_view rfl⟩
  | step s t _ hlegal hs ih =>
    obtain ⟨hi, hc, hr⟩ := ih
    have hkeeps : KeepsContract s t := .step hi hc hlegal hs
    exact ⟨engineInvariantIsKeptByEveryStep s t hi hs, hkeeps.contract, hkeeps.room hr⟩

/-- A run whose software keeps R293 is a contract run. -/
theorem DrainedReachable.contractReachable {s : State} (h : DrainedReachable s) : ContractReachable s := by
  induction h with
  | reset mem params script hwf => exact .reset mem params script hwf
  | step s t _ hlegal hs _ ih => exact .step s t ih hlegal hs

/-- What holds besides when the software keeps R293. -/
theorem DrainedReachable.flightInv {s : State} (h : DrainedReachable s) : FlightInv s := by
  induction h with
  | reset => exact flightInv_reset.of_view rfl
  | step s t hs hlegal hstep hk ih =>
    obtain ⟨hi, hc, -⟩ := hs.contractReachable.invariants
    exact (KeepsContract.step hi hc hlegal hstep).flight ih hk

/-- Settles O57: the invariant of contract runs at an enabled event step; and the rows of the contract. -/
theorem contractRunsNeverSeeTheExcludedConditions : Obligations.ContractRunsNeverSeeTheExcludedConditions := by
  unfold Obligations.ContractRunsNeverSeeTheExcludedConditions
  refine ⟨fun s hs he => ?_, fun s code => (legalDelivery_iff s code).trans ⟨fun h => ?_, ?_⟩⟩
  · obtain ⟨hi, hc, -⟩ := hs.invariants
    rw [srValue_of_enabled s he]
    exact ⟨hi.bound_of_enabled he, hc.waitingEvent (int_of_enabled he)⟩
  · cases h with
    | addressed hm harmed hp hc =>
      obtain ⟨hen, hea, har, -, hint⟩ := (armed_iff s).1 harmed
      exact .inl ⟨hm, hen, hea, har, hint, hp, hc⟩
    | started d hm hp hl hc => exact .inr ⟨d, .inl ⟨hm, hp, .inl ⟨hl, hc⟩⟩⟩
    | restarted d hm hp hl hc => exact .inr ⟨d, .inl ⟨hm, hp, .inr ⟨hl, hc⟩⟩⟩
    | writeAddressed d hm hp hbit hc => exact .inr ⟨d, .inr (.inl ⟨hm, hp, hbit, hc⟩)⟩
    | readAddressed d hm hp hbit hc => exact .inr ⟨d, .inr (.inr (.inl ⟨hm, hp, hbit, hc⟩))⟩
    | byteSent d hm hp hc => exact .inr ⟨d, .inr (.inr (.inr (.inl ⟨hm, hp, hc⟩)))⟩
    | readAcked d hm hp hc => exact .inr ⟨d, .inr (.inr (.inr (.inr (.inl ⟨hm, hp, hc⟩))))⟩
    | readNacked d hm hp hc => exact .inr ⟨d, .inr (.inr (.inr (.inr (.inr (.inl ⟨hm, hp, hc⟩)))))⟩
    | receiveAcked d hm hp hc => exact .inr ⟨d, .inr (.inr (.inr (.inr (.inr (.inr (.inl ⟨hm, hp, hc⟩))))))⟩
    | receiveNacked d hm hp hc => exact .inr ⟨d, .inr (.inr (.inr (.inr (.inr (.inr (.inr (.inl ⟨hm, hp, hc⟩)))))))⟩
    | sendAcked d hm hp hc =>
      exact .inr ⟨d, .inr (.inr (.inr (.inr (.inr (.inr (.inr (.inr (.inl ⟨hm, hp, hc⟩))))))))⟩
    | sendNacked d hm hp hc =>
      exact .inr ⟨d, .inr (.inr (.inr (.inr (.inr (.inr (.inr (.inr (.inr ⟨hm, hp, hc⟩))))))))⟩
  · rintro (⟨hm, hen, hea, har, hint, hp, hc⟩ | ⟨d, ⟨hm, hp, ⟨hl, hc⟩ | ⟨hl, hc⟩⟩ | ⟨hm, hp, hbit, hc⟩ | ⟨hm, hp, hbit, hc⟩ |
      ⟨hm, hp, hc⟩ | ⟨hm, hp, hc⟩ | ⟨hm, hp, hc⟩ | ⟨hm, hp, hc⟩ | ⟨hm, hp, hc⟩ | ⟨hm, hp, hc⟩ | ⟨hm, hp, hc⟩⟩)
    exacts [.addressed hm ((armed_iff s).2 ⟨hen, hea, har, hm, hint⟩) hp hc, .started d hm hp hl hc,
      .restarted d hm hp hl hc, .writeAddressed d hm hp hbit hc, .readAddressed d hm hp hbit hc, .byteSent d hm hp hc,
      .readAcked d hm hp hc, .readNacked d hm hp hc, .receiveAcked d hm hp hc, .receiveNacked d hm hp hc,
      .sendAcked d hm hp hc, .sendNacked d hm hp hc]

/-- R247 (b): an ACKed byte of a master read leaves room for one more. -/
theorem readAnswering_of_mrDataAck {s : State} (h : readAnswering s) (hack : decodeCondition s.sr = .mrDataAck) :
    2 ≤ s.rem.toNat := by
  obtain ⟨-, -, hroom⟩ := h
  rwa [hack] at hroom

/-- R247 (b), (c): the room of a transfer in flight at an enabled event step. -/
theorem RoomInv.room_of_enabled {s : State} (hr : RoomInv s) (hi : EngineInv s) (he : s.eventEnabled = true) :
    (s.state = .mr → decodeCondition s.srValue = .mrDataAck → 2 ≤ s.rem.toNat) ∧
      (s.state = .mr → decodeCondition s.srValue = .mrDataNack → 1 ≤ s.rem.toNat) ∧
      (s.state = .st → decodeCondition s.srValue = .stDataAck → 1 ≤ s.rem.toNat) := by
  have hbound : s.role ≠ .none := hi.bound_of_enabled he
  have hint : s.int = true := int_of_enabled he
  rw [srValue_of_enabled s he]
  exact ⟨fun hmr => readAnswering_of_mrDataAck (hr.readAnswers hbound hmr hint),
    fun hmr _ => (hr.readAnswers hbound hmr hint).1, fun hst => hr.transmitAnswers hbound hst hint⟩

/-- Settles O58: the invariant of room at the three events; the invariant of runs that abandon no transfer says that each
comes in its transfer. -/
theorem transfersInFlightAlwaysHaveRoom : Obligations.TransfersInFlightAlwaysHaveRoom := by
  unfold Obligations.TransfersInFlightAlwaysHaveRoom
  constructor
  · intro s hs he
    obtain ⟨hi, -, hr⟩ := hs.invariants
    exact hr.room_of_enabled hi he
  · intro s hs he
    obtain ⟨hi, -, hr⟩ := hs.contractReachable.invariants
    obtain ⟨hack, hnack, hsend⟩ := hr.room_of_enabled hi he
    have hevent : eventAgrees (decodeCondition s.srValue) s.state := by
      rw [srValue_of_enabled s he]
      exact hs.flightInv.event (hi.bound_of_enabled he) (int_of_enabled he)
    have inFlight : ∀ {c}, decodeCondition s.srValue = c → eventAgrees c s.state := fun hc => hc ▸ hevent
    exact ⟨fun hc => ⟨inFlight hc, hack (inFlight hc) hc⟩, fun hc => ⟨inFlight hc, hnack (inFlight hc) hc⟩,
      fun hc => ⟨inFlight hc, hsend (inFlight hc) hc⟩⟩

end Sys2Proof.Machine
end

section
/-! SUPPORT. The two contexts (R266): the registers a reaction leaves to the foreground, and what a command can have written
when it answers, with the registers it leaves. -/

namespace Sys2Proof.Machine

/-! ### The handler context -/

/-- R266: a state with the registers of the handler context erased: STATE, COUNT, the cursor, the data space, DR, EVQ, CR and
what a control write hands to the BUS agent. IX, AR and CALLBACK_DUE, which only some reactions write, are kept. -/
def State.foreground (s : State) : State :=
  { s with
    state := .idle, count := 0#16, next := 0#16, last := 0#16, dr := 0x00#8, cr := 0x00#8, mem := [], evq := [],
    pending := none, busMode := .off, busLast := none }

@[simp] theorem crWrite_foreground (v : Byte) (s : State) : (crWrite v s).foreground = s.foreground := rfl

@[simp] theorem push_foreground (ty : EventType) (s : State) : (push ty s).foreground = s.foreground := by
  rw [push_eq]; rfl

@[simp] theorem stop_foreground (e : EngineState) (ty : EventType) (s : State) :
    (stop e ty s).foreground = s.foreground := push_foreground ty _

@[simp] theorem loadByte_foreground (s : State) : (loadByte s).foreground = s.foreground := rfl

@[simp] theorem storeByte_foreground (s : State) : (storeByte s).foreground = s.foreground := by
  unfold storeByte; split <;> rfl

@[simp] theorem slaveLoad_foreground (b : Segment) (e : EngineState) (s : State) :
    (slaveLoad b e s).foreground = s.foreground := by
  rw [slaveLoad_eq]; rfl

@[simp] theorem stLoad_foreground (s : State) : (stLoad s).foreground = s.foreground := by
  unfold stLoad; split <;> rfl

@[simp] theorem stNext_foreground (s : State) : (stNext s).foreground = s.foreground := stLoad_foreground s

/-- R106: of the registers kept, `advance()` moves IX. -/
theorem advance_foreground (s : State) : (advance s).foreground = { s.foreground with ix := (advance s).ix } := by
  simp [State.foreground]

/-- R175: so does the transmitter. -/
theorem mtNext_foreground (s : State) : (mtNext s).foreground = { s.foreground with ix := (advance s).ix } := by
  rw [← advance_foreground]
  unfold mtNext mtSend
  split <;> simp

/-- R215: the end of a write phase disarms AR, and makes the call-back due for a target. -/
theorem slaveWriteDone_foreground (s : State) : (slaveWriteDone s).foreground =
    { s.foreground with ar := 0x00#8, callbackDue := if s.target = 0#16 then s.callbackDue else true } := by
  rw [slaveWriteDone_eq, push_eq]; rfl

/-- R266: what a reaction can do to the registers kept: nothing; or, of a master transmitter, it moves IX; or, at the end of a
slave's write phase, it disarms AR and may make the call-back due. -/
theorem exec_reaction_foreground {i : Instr} {s t : State} (hc : i.condition.isSome = true) (h : exec i s = .next t) :
    t.foreground = s.foreground ∨
    ((i = .mtSlaAck ∨ i = .mtDataAck) ∧ ∃ j, t.foreground = { s.foreground with ix := j }) ∨
    ((i = .srDataNack ∨ i = .srGcallDataNack ∨ i = .srStop) ∧ ∃ due, (s.callbackDue = true → due = true) ∧
      t.foreground = { s.foreground with ar := 0x00#8, callbackDue := due }) := by
  cases i with
  | start | repStart | mrSlaAck | stDataNack | stLastData | unmappedD0 | unmappedD8 | unmappedE0 | unmappedE8
  | unmappedF0 | noInfo => cases h; exact .inl rfl
  | mtSlaAck | mtDataAck => cases h; exact .inr (.inl ⟨by simp, _, mtNext_foreground s⟩)
  | mtDataNack => cases h; exact .inl (stop_foreground _ _ s)
  | busError | mtSlaNack | mrSlaNack => cases h; exact .inl (stop_foreground _ _ _)
  | arbLost => cases h; exact .inl (push_foreground _ _)
  | mrDataAck | srDataAck | srGcallDataAck => cases h; exact .inl (storeByte_foreground s)
  | mrDataNack => cases h; exact .inl ((stop_foreground _ _ _).trans (storeByte_foreground s))
  | srSlaAck | srArbLostSlaAck | srGcallAck | srArbLostGcallAck => cases h; exact .inl (slaveLoad_foreground s.slvWr .sr s)
  | srDataNack | srGcallDataNack | srStop =>
    cases h; exact .inr (.inr ⟨by simp, _, by simp +contextual, slaveWriteDone_foreground s⟩)
  | stSlaAck | stArbLostSlaAck =>
    cases h; exact .inl ((stNext_foreground _).trans (slaveLoad_foreground s.slvRd .st s))
  | stDataAck => cases h; exact .inl (stNext_foreground s)
  | _ => cases hc

/-- Settles O46: the registers kept, and IX, AR and CALLBACK_DUE in each of the three cases. -/
theorem handlerContextFrame : Obligations.HandlerContextFrame := by
  unfold Obligations.HandlerContextFrame
  intro i s t hc h
  obtain ⟨j, a, due, hkept, hix, har, hzero, hdue⟩ : ∃ j a due,
      t.foreground = { s.foreground with ix := j, ar := a, callbackDue := due } ∧
      (i ≠ .mtSlaAck ∧ i ≠ .mtDataAck → j = s.ix) ∧
      (i ≠ .srDataNack ∧ i ≠ .srGcallDataNack ∧ i ≠ .srStop → a = s.ar ∧ due = s.callbackDue) ∧
      (a = s.ar ∨ a = 0x00#8) ∧ (s.callbackDue = true → due = true) := by
    obtain hsame | ⟨hi, j, hmoved⟩ | ⟨hi, due, hdue, hdisarmed⟩ := exec_reaction_foreground hc h
    · exact ⟨s.ix, s.ar, s.callbackDue, hsame, fun _ => rfl, fun _ => ⟨rfl, rfl⟩, .inl rfl, id⟩
    · exact ⟨j, s.ar, s.callbackDue, hmoved, fun hne => absurd hi (by simpa using hne), fun _ => ⟨rfl, rfl⟩, .inl rfl, id⟩
    · exact ⟨s.ix, 0x00#8, due, hdisarmed, fun _ => rfl, fun hne => absurd hi (by simpa using hne), .inr rfl, hdue⟩
  have keeps {α : Type} (f : State → α) :
      f t.foreground = f { s.foreground with ix := j, ar := a, callbackDue := due } := congrArg f hkept
  obtain rfl : t.ix = j := keeps State.ix
  obtain rfl : t.ar = a := keeps State.ar
  obtain rfl : t.callbackDue = due := keeps State.callbackDue
  exact ⟨keeps State.role, keeps State.dev, keeps State.addr, keeps State.vec, keeps State.hdr0, keeps State.hdr1,
    keeps State.target, keeps State.slvWr, keeps State.slvRd, keeps State.pue, keeps State.brr, keeps State.sr,
    keeps State.port, keeps State.callPort, keeps State.onRequest, keeps State.params, keeps State.script, har, hzero, hdue,
    hix⟩

/-! ### The foreground context -/

/-- What a command can have written when it answers: nothing, or, when it is not refused, what its rule says. -/
inductive CommandWrites (s : State) : Instr → State → Prop where
  /-- A refusal, or a command that only answers. -/
  | nothing (i : Instr) : CommandWrites s i s
  /-- R141. -/
  | begins (a8 : Byte) (target : Half) :
      CommandWrites s (.beginCmd a8 target) (bind .master (busAddress a8) 0x00#8 target s)
  /-- R203. -/
  | sbegins (a8 : Byte) (target : Half) : CommandWrites s (.sbegin a8 target)
      { bind .slave (busAddress a8) (busAddress a8) target s with callbackDue := false }
  /-- R142. -/
  | releases : CommandWrites s .endCmd { crWrite offCmd s with role := .none, target := 0#16, callbackDue := false }
  /-- R144. -/
  | sends (buf : Ptr) (size : Half) : CommandWrites s (.wreq buf size) (requestAccept false (buildRaw buf size s))
  /-- R145. -/
  | sends1 (header : Byte) (buf : Ptr) (size : Half) :
      CommandWrites s (.wreq1 header buf size) (requestAccept false (buildHeader1 header buf size s))
  /-- R146. -/
  | sends2 (header : Half) (buf : Ptr) (size : Half) :
      CommandWrites s (.wreq2 header buf size) (requestAccept false (buildHeader2 header buf size s))
  /-- R147. -/
  | receives (buf : Ptr) (size : Half) : CommandWrites s (.rreq buf size) (requestAccept true (buildRaw buf size s))
  /-- R201. -/
  | registersRead (buf : Ptr) (size : Half) : CommandWrites s (.setrb buf size) { s with slvRd := ⟨buf, size⟩ }
  /-- R202. -/
  | registersWrite (buf : Ptr) (size : Half) : CommandWrites s (.setwb buf size) { s with slvWr := ⟨buf, size⟩ }
  /-- R204: refused or not, CALLBACK_DUE is cleared; AR is armed or as it was. -/
  | rearms (ar : Byte) : CommandWrites s .rearm { s with callbackDue := false, ar := ar }

/-- R143: a request is refused, or accepted on the descriptor its builder has written. -/
theorem request_cases (op : Bool) (total : Nat) (built s : State) :
    request op total built s = respond minusOne s ∨
    request op total built s = respond accepted (requestAccept op built) := by
  unfold request
  split
  · exact .inl rfl
  · exact .inr rfl

/-- R140, R160: a command holds, which changes nothing, or it answers after its writes. -/
theorem exec_command_writes {i : Instr} {s t : State} (hc : i.condition = none) (h : exec i s = .next t) :
    t = s ∨ ∃ r u, CommandWrites s i u ∧ t = respond r u := by
  have refused : ∀ r, t = respond r s → t = s ∨ ∃ r u, CommandWrites s i u ∧ t = respond r u :=
    fun r ht => .inr ⟨r, s, .nothing i, ht⟩
  have requested : ∀ op total built, CommandWrites s i (requestAccept op built) → t = request op total built s →
      t = s ∨ ∃ r u, CommandWrites s i u ∧ t = respond r u := fun op total built hw ht =>
    (request_cases op total built s).elim (fun hr => refused _ (ht.trans hr)) fun ha => .inr ⟨_, _, hw, ht.trans ha⟩
  cases i with
  | beginCmd a8 target =>
    simp only [exec, execBegin] at h
    repeat' split at h
    all_goals cases h
    exacts [refused _ rfl, refused _ rfl, .inr ⟨_, _, .begins a8 target, rfl⟩]
  | sbegin a8 target =>
    simp only [exec, execSbegin] at h
    repeat' split at h
    all_goals cases h
    exacts [refused _ rfl, refused _ rfl, .inr ⟨_, _, .sbegins a8 target, rfl⟩]
  | endCmd =>
    simp only [exec, execEnd] at h
    repeat' split at h
    all_goals cases h
    exacts [refused _ rfl, .inl rfl, .inr ⟨_, _, .releases, rfl⟩]
  | wreq buf size => cases h; exact requested _ _ _ (.sends buf size) rfl
  | wreq1 header buf size => cases h; exact requested _ _ _ (.sends1 header buf size) rfl
  | wreq2 header buf size => cases h; exact requested _ _ _ (.sends2 header buf size) rfl
  | rreq buf size =>
    simp only [exec, execRreq] at h
    split at h <;> cases h
    exacts [refused _ rfl, requested _ _ _ (.receives buf size) rfl]
  | awaitCmd m =>
    simp only [exec, execAwait] at h
    split at h <;> cases h
    exacts [.inl rfl, refused _ rfl]
  | poll => cases h; exact refused _ rfl
  | setrb buf size =>
    simp only [exec, execSetrb] at h
    repeat' split at h
    all_goals cases h
    exacts [refused _ rfl, refused _ rfl, .inr ⟨_, _, .registersRead buf size, rfl⟩]
  | setwb buf size =>
    simp only [exec, execSetwb] at h
    repeat' split at h
    all_goals cases h
    exacts [refused _ rfl, refused _ rfl, .inr ⟨_, _, .registersWrite buf size, rfl⟩]
  | rearm => obtain ⟨r, a, rfl⟩ := execRearm_cases h; exact .inr ⟨r, _, .rearms a, rfl⟩
  | _ => cases hc

/-- Settles O47: a hold and an answer write the port alone, so it is enough to look at what each command can have written. -/
theorem foregroundContextFrame : Obligations.ForegroundContextFrame := by
  unfold Obligations.ForegroundContextFrame
  intro i s t hc h
  obtain rfl | ⟨r, u, hw, rfl⟩ := exec_command_writes hc h
  · simp
  cases hw with
  | nothing | releases | registersRead _ _ | registersWrite _ _ | rearms _ => simp [State.dataByte]
  | begins a8 target | sbegins a8 target => simp [isBind, bind, State.dataByte]
  | sends buf size | sends1 header buf size | sends2 header buf size | receives buf size =>
    simp [isRequest, requestAccept, buildRaw, buildHeader1, buildHeader2, State.dataByte]

end Sys2Proof.Machine
end

section
/-! SUPPORT. The EVENTQ agent and its queue: the dispatch, the call-back and its return (R222, R262), and the only turns that
move EVQ (R260 to R262). -/

namespace Sys2Proof.Machine

/-! ### The turns of EVENTQ (R222, R262) -/

section
variable {s : State}

/-- R222: the records that call the bound slave back. -/
theorem callsBack_iff (r : EventRecord) (s : State) : callsBack r s = true ↔
    r.type = .writeCompleted ∧ s.role = .slave ∧ r.target = s.target ∧ s.callbackDue = true := by
  simp [callsBack, and_assoc]

section
variable {r : EventRecord} {records : List EventRecord} (hnone : s.onRequest = none) (hq : s.evq = r :: records)
include hnone hq

/-- R222, R262: the oldest record is taken and the bound slave called back. -/
theorem dispatch_of_callsBack (h : callsBack r s = true) :
    dispatch s = { s with evq := records, onRequest := some ⟨s.slvWr.buf, r.value⟩ } := by
  simp [dispatch, hnone, hq, h]

/-- R262: any other record is taken and no more. -/
theorem dispatch_of_not_callsBack (h : ¬ callsBack r s = true) : dispatch s = { s with evq := records } := by
  simp [dispatch, hnone, hq, h]

end

/-- R262: while a call-back runs, or with no record, none is taken (log entries 4 and 13). -/
theorem dispatch_of_nothing (h : s.onRequest ≠ none ∨ s.evq = []) : dispatch s = s := by
  unfold dispatch
  split
  next hnone hq => simp [hnone, hq] at h
  next => rfl

/-- R222: a running call-back stores its byte. -/
theorem callStore_of_running (h : s.onRequest.isSome = true) (a : Ptr) (b : Byte) : callStore a b s = memWrite a b s :=
  if_pos h

/-- With no call-back running its turns do nothing (log entry 4). -/
theorem callTurns_of_none (h : s.onRequest = none) (a : Ptr) (b : Byte) (w : CmdWord) :
    callReturn s = .next s ∧ callStore a b s = s ∧ callCommand w s = .next s := by
  simp [callReturn, callStore, callCommand, h]

/-- R222: a running call-back returns, and the engine executes REARM on the exchanged ports (log entry 14). -/
theorem callReturn_of_running {t : State} (hrun : s.onRequest.isSome = true)
    (h : exec .rearm { s with onRequest := none, port := .presented rearmWord, callPort := s.port } = .next t) :
    callReturn s = .next (swapPorts t) := by
  have hd : decodeCommand rearmWord = .ok .rearm := by decide
  have hstep : commandStep { swapPorts { s with onRequest := none } with port := .presented rearmWord } = .next t :=
    (commandStep_of_decoded rfl hd).trans h
  rw [callReturn, if_pos hrun, callRun, hstep]
  rfl

end

/-- Settles O52: EVENTQ's turns, enabled or not, on the state with the turn taken from the script. -/
theorem eventqDispatchesCallsBackAndRearms : Obligations.EventqDispatchesCallsBackAndRearms := by
  unfold Obligations.EventqDispatchesCallsBackAndRearms
  intro s r records rest a b w
  have hcalls : callsBack r { s with script := rest } = true ↔
      r.type = .writeCompleted ∧ s.role = .slave ∧ r.target = s.target ∧ s.callbackDue = true := callsBack_iff r _
  refine ⟨?taken, ?nothing, ?store, ?rearmed, ?refused, ?idle, ?inFlight⟩
  case taken =>
    intro hs hnone hq
    refine ⟨fun htype hrole htarget hdue => ?_, fun hother => ?_⟩
    · exact (step_of_script hs).trans (congrArg _
        (dispatch_of_callsBack (s := { s with script := rest }) hnone hq (hcalls.2 ⟨htype, hrole, htarget, hdue⟩)))
    · have hno : ¬ callsBack r { s with script := rest } = true := by
        rw [hcalls]
        rintro ⟨htype, hrole, htarget, hdue⟩
        simp [htype, hrole, htarget, hdue] at hother
      exact (step_of_script hs).trans (congrArg _
        (dispatch_of_not_callsBack (s := { s with script := rest }) hnone hq hno))
  case nothing =>
    intro hs h
    exact (step_of_script hs).trans (congrArg _ (dispatch_of_nothing (s := { s with script := rest }) h))
  case store =>
    intro hs hrun
    exact (step_of_script hs).trans (congrArg _ (callStore_of_running (s := { s with script := rest }) hrun a b))
  case rearmed =>
    intro hs hrun hslave
    exact (step_of_script hs).trans
      (callReturn_of_running (s := { s with script := rest }) hrun ((rearmArmsABoundSlave _).2 hslave))
  case refused =>
    intro hs hrun hother
    exact (step_of_script hs).trans
      (callReturn_of_running (s := { s with script := rest }) hrun ((rearmArmsABoundSlave _).1 hother))
  case idle =>
    intro hnone hs
    obtain ⟨hreturn, hstore, hcommand⟩ := callTurns_of_none (s := { s with script := rest }) hnone a b w
    rcases hs with hs | hs | hs
    exacts [(step_of_script hs).trans hreturn, (step_of_script hs).trans (congrArg _ hstore),
      (step_of_script hs).trans hcommand]
  case inFlight =>
    intro hs hbusy
    exact (step_of_script hs).trans (callCommand_of_busy (s := { s with script := rest }) hbusy w)

/-! ### What moves EVQ (R260 to R262) -/

/-- R260: EVQ is left, or one record is appended, for TARGET (not 0) and with COUNT as it is afterwards. -/
def PushesAtMostOne (s t : State) : Prop :=
  t.evq = s.evq ∨ s.target ≠ 0#16 ∧ ∃ type, t.evq = s.evq ++ [⟨type, s.target, t.count⟩]

theorem push_pushesAtMostOne {s u : State} (hq : u.evq = s.evq) (hg : u.target = s.target) (ty : EventType) :
    PushesAtMostOne s (push ty u) := by
  rw [PushesAtMostOne, push_evq, push_count, hq, hg]
  split
  next => exact .inl rfl
  next htarget => exact .inr ⟨htarget, ty, rfl⟩

theorem stop_pushesAtMostOne {s u : State} (hq : u.evq = s.evq) (hg : u.target = s.target) (e : EngineState)
    (ty : EventType) : PushesAtMostOne s (stop e ty u) :=
  push_pushesAtMostOne (u := { crWrite stopCmd u with state := e }) hq hg ty

theorem mtNext_pushesAtMostOne (s : State) : PushesAtMostOne s (mtNext s) := by
  unfold mtNext mtSend
  split
  · exact stop_pushesAtMostOne (advance_evq s) (advance_target s) _ _
  · exact .inl (advance_evq s)

/-- R215: the record is pushed before the call-back is made due. -/
theorem slaveWriteDone_pushesAtMostOne (s : State) : PushesAtMostOne s (slaveWriteDone s) := by
  rw [slaveWriteDone_eq]
  exact push_pushesAtMostOne (s := s) (u := { crWrite releaseCmd { s with ar := 0#8 } with state := .idle }) rfl rfl _

/-- R186, R260: the reaction to any condition pushes one record at most, after COUNT is final. -/
theorem exec_reaction_pushesAtMostOne {i : Instr} {s t : State} (hc : i.condition.isSome = true)
    (h : exec i s = .next t) : PushesAtMostOne s t := by
  cases i with
  | start | repStart | mrSlaAck | stDataNack | stLastData | unmappedD0 | unmappedD8 | unmappedE0 | unmappedE8
  | unmappedF0 | noInfo => cases h; exact .inl rfl
  | mtSlaAck | mtDataAck => cases h; exact mtNext_pushesAtMostOne s
  | mtDataNack | busError | mtSlaNack | mrSlaNack => cases h; refine stop_pushesAtMostOne ?_ ?_ _ _ <;> rfl
  | arbLost => cases h; refine push_pushesAtMostOne ?_ ?_ _ <;> rfl
  | mrDataAck | srDataAck | srGcallDataAck => cases h; exact .inl (storeByte_evq s)
  | mrDataNack => cases h; exact stop_pushesAtMostOne (storeByte_evq s) (storeByte_target s) _ _
  | srSlaAck | srArbLostSlaAck | srGcallAck | srArbLostGcallAck => cases h; exact .inl (slaveLoad_evq s.slvWr .sr s)
  | srDataNack | srGcallDataNack | srStop => cases h; exact slaveWriteDone_pushesAtMostOne s
  | stSlaAck | stArbLostSlaAck => cases h; exact .inl ((stLoad_evq _).trans (slaveLoad_evq s.slvRd .st s))
  | stDataAck => cases h; exact .inl (stLoad_evq s)
  | _ => cases hc

theorem eventStep_pushesAtMostOne {s t : State} (h : eventStep s = .next t) : PushesAtMostOne s t := by
  cases he : s.eventEnabled with
  | true => exact exec_reaction_pushesAtMostOne (by simp [condition_decodeStatus]) ((eventStep_of_enabled he).symm.trans h)
  | false => cases (eventStep_of_masked he).symm.trans h; exact .inl rfl

/-- R266: no command writes EVQ, and neither does the answer to an illegal word. -/
theorem commandStep_evq {s t : State} (h : commandStep s = .next t) : t.evq = s.evq := by
  unfold commandStep runCommand at h
  split at h
  · split at h
    next i hd =>
      obtain ⟨-, hevq, -⟩ := foregroundContextFrame i s t (condition_of_decodeCommand hd) h
      exact hevq
    next => cases h; rfl
  all_goals cases h; rfl

theorem callRun_evq {s t : State} {w : CmdWord} (h : callRun w s = .next t) : t.evq = s.evq := by
  obtain ⟨u, hu, rfl⟩ := callRun_next w s t h
  have hevq : u.evq = s.evq := commandStep_evq (s := { swapPorts s with port := .presented w }) hu
  exact hevq

/-- R262: a dispatch leaves EVQ or takes its oldest record. -/
theorem dispatch_evq (s : State) : (dispatch s).evq = s.evq ∨ ∃ r, s.evq = r :: (dispatch s).evq := by
  unfold dispatch
  split
  next r rest _ hq => exact .inr ⟨r, hq⟩
  next => exact .inl rfl

/-- R260 to R262: a turn leaves EVQ, but for an event step, a dispatch and a reset. -/
theorem takeTurn_evq {turn : Turn} {s t : State} (h : takeTurn turn s = .next t) :
    t.evq = s.evq ∨ (turn = .event ∧ PushesAtMostOne s t) ∨ (turn = .dispatch ∧ ∃ r, s.evq = r :: t.evq) ∨
    (turn = .reset ∧ t.evq = []) := by
  cases turn with
  | reset => cases h; exact .inr (.inr (.inr ⟨rfl, rfl⟩))
  | hostPresent w => cases h; unfold hostPresent; split <;> exact .inl rfl
  | hostStore a b => cases h; unfold hostStore; split <;> exact .inl rfl
  | command => exact .inl (commandStep_evq h)
  | event => exact .inr (.inl ⟨rfl, eventStep_pushesAtMostOne h⟩)
  | deliver code data => cases h; unfold deliver; split <;> exact .inl rfl
  | finish =>
    cases h; unfold finish
    split
    · exact .inl rfl
    · split <;> exact .inl rfl
  | dispatch =>
    cases h
    exact (dispatch_evq s).imp_right fun htaken => .inr (.inl ⟨rfl, htaken⟩)
  | callCommand w =>
    simp only [takeTurn, callCommand] at h
    split at h
    · exact .inl (callRun_evq h)
    · cases h; exact .inl rfl
  | callStore a b => cases h; unfold callStore; split <;> exact .inl rfl
  | callReturn =>
    simp only [takeTurn, callReturn] at h
    split at h
    · exact .inl (callRun_evq (s := { s with onRequest := none }) h)
    · cases h; exact .inl rfl

/-- Settles O53: no turn left keeps EVQ; else what the turn does to it. -/
theorem eventQueueGrowsAtTheTailOnly : Obligations.EventQueueGrowsAtTheTailOnly := by
  unfold Obligations.EventQueueGrowsAtTheTailOnly
  intro s t h
  cases hs : s.script with
  | nil => rw [step, hs] at h; cases h; exact .inl rfl
  | cons turn rest =>
    rw [step_of_script hs] at h
    obtain hkept | ⟨rfl, hkept | ⟨htarget, type, hpushed⟩⟩ | ⟨rfl, r, htaken⟩ | ⟨rfl, hreset⟩ := takeTurn_evq h
    · exact .inl hkept
    · exact .inl hkept
    · exact .inr (.inl ⟨rest, type, rfl, htarget, hpushed⟩)
    · exact .inr (.inr (.inl ⟨rest, r, rfl, htaken⟩))
    · exact .inr (.inr (.inr ⟨rest, rfl, hreset⟩))

end Sys2Proof.Machine
end

section
/-! SUPPORT. Reset and what follows it (R280 to R282): the reset turn, and the turns of every agent but the HOST while the
machine is at rest, as reset leaves it. -/

namespace Sys2Proof.Machine

/-! ### The reset turn (R280, R282) -/

/-- Settles O3: the reset turn, on the state with the turn taken from the script, whose other fields are not read. -/
theorem resetTurnKeepsOnlyTheDataSpace : Obligations.ResetTurnKeepsOnlyTheDataSpace := by
  unfold Obligations.ResetTurnKeepsOnlyTheDataSpace
  intro s rest hs
  calc step s
      = .next (platformReset { s with script := rest }) := step_of_script hs
    _ = .next { State.reset with mem := s.mem, params := s.params, script := rest } := rfl

/-! ### The machine at rest (R281) -/

/-- R140: with no word presented a command step does nothing (log entry 4). -/
theorem commandStep_of_free {s : State} (h : ∀ w, s.port ≠ .presented w) : commandStep s = .next s := by
  unfold commandStep
  split
  next w hp => exact absurd hp (h w)
  next => rfl
  next => rfl

/-- R281: nothing is left to do for the engine, the BUS agent and EVENTQ: no word waits, the bus controller is off with no
command pending, no record waits and no call-back runs. -/
structure AtRest (s : State) : Prop where
  port : ∀ w, s.port ≠ .presented w
  en : s.en = false
  pending : s.pending = none
  evq : s.evq = []
  onRequest : s.onRequest = none

/-- R39, R281: reset leaves the machine at rest, whatever the data space, the parameters and the turns to come. -/
theorem atRest_reset (mem : Memory) (params : Params) (script : List Turn) :
    AtRest { State.reset with mem := mem, params := params, script := script } :=
  ⟨nofun, show State.reset.en = false by decide, rfl, rfl, rfl⟩

/-- R281: at rest only the HOST and a reset can change anything; every other turn is not enabled (log entry 4). -/
theorem AtRest.takeTurn_eq {s : State} (h : AtRest s) {turn : Turn} (hreset : turn ≠ .reset)
    (hpresent : ∀ w, turn ≠ .hostPresent w) (hstore : ∀ a b, turn ≠ .hostStore a b) : takeTurn turn s = .next s := by
  cases turn with
  | reset => exact absurd rfl hreset
  | hostPresent w => exact absurd rfl (hpresent w)
  | hostStore a b => exact absurd rfl (hstore a b)
  | command => exact commandStep_of_free h.port
  | event => exact eventStep_of_masked (by simp [State.eventEnabled, h.en])
  | deliver code data => exact congrArg _ (deliver_of_blocked (.inl h.en) code data)
  | finish => exact congrArg _ (finish_of_none h.pending)
  | dispatch => exact congrArg _ (dispatch_of_nothing (.inr h.evq))
  | callCommand w =>
    obtain ⟨-, -, hcommand⟩ := callTurns_of_none h.onRequest 0#16 0#8 w
    exact hcommand
  | callStore a b =>
    obtain ⟨-, hstored, -⟩ := callTurns_of_none h.onRequest a b 0#64
    exact congrArg _ hstored
  | callReturn =>
    obtain ⟨hreturn, -, -⟩ := callTurns_of_none h.onRequest 0#16 0#8 0#64
    exact hreturn

/-- R76, R77: true, answered in IDLE. -/
theorem responseWord_idle_true : responseWord .idle resultTrue = 0x010001#24 := by decide

/-- R141, R203: an unbound engine answers true in IDLE to BEGIN and to SBEGIN. -/
theorem binding_answers_true {a8 : Byte} {s : State} (h : a8.msb = false) (hunbound : s.role = .none) (target : Half) :
    ∃ t u, exec (.beginCmd a8 target) s = .next t ∧ t.port = .answered 0x010001#24 ∧
      exec (.sbegin a8 target) s = .next u ∧ u.port = .answered 0x010001#24 :=
  ⟨_, _, exec_begin_of_unbound h hunbound target, congrArg _ responseWord_idle_true,
    exec_sbegin_of_unbound h hunbound target, congrArg _ responseWord_idle_true⟩

/-- Settles O2: reset leaves the machine at rest and unbound. -/
theorem afterResetOnlyTheHostActs : Obligations.AfterResetOnlyTheHostActs := by
  unfold Obligations.AfterResetOnlyTheHostActs
  intro mem params rest turn hturn
  obtain ⟨hreset, hpresent, hstore⟩ :
      turn ≠ .reset ∧ (∀ w, turn ≠ .hostPresent w) ∧ ∀ a b, turn ≠ .hostStore a b := by
    rcases hturn with rfl | rfl | rfl | rfl | rfl | ⟨_, _, rfl⟩ | ⟨_, rfl⟩ | ⟨_, _, rfl⟩ <;> simp
  exact ⟨(step_of_script rfl).trans ((atRest_reset mem params rest).takeTurn_eq hreset hpresent hstore),
    fun _ target h => binding_answers_true h rfl target⟩

end Sys2Proof.Machine
end
